-- ==== Sys2Proof/Word.lean ====
section
/-! DEFINITION. The bit vectors of the decoder block: the instruction word and the widths of its fields
(spec/00_scope.md R12). Bit 0 is the least significant bit everywhere (R15). -/

namespace Sys2Proof

/-- The instruction word `w`, exactly 32 bits (R12, R22, R55). -/
abbrev Word := BitVec 32

/-- A register index: a 5-bit field; every value 0..31 is a legal operand (R12, R28). -/
abbrev RegIdx := BitVec 5

/-- The 7-bit primary field `w[6:0]` (R18, R56). -/
abbrev Opcode := BitVec 7

/-- The 3-bit key `w[14:12]` (R18, R56). -/
abbrev Funct3 := BitVec 3

/-- The 7-bit key `w[31:25]` (R18, R56). -/
abbrev Funct7 := BitVec 7

/-- The 12-bit key `w[31:20]` of SYSTEM words with funct3 `000` (R18, R67). -/
abbrev Funct12 := BitVec 12

/-- A CSR number `w[31:20]` (R12, R30). -/
abbrev CsrNum := BitVec 12

/-- The unsigned immediate of formats I, I_Load, S and SB (R72). -/
abbrev Imm12 := BitVec 12

/-- The unsigned immediate of formats U_PCRelative, U_Absolute and UJ (R72). -/
abbrev Imm20 := BitVec 20

end Sys2Proof
end

