-- ==== Sys2Proof/Config.lean ====
section
/-! DEFINITION. What is fixed when the block is built (spec/00_scope.md R13, R14) and the one value the spec leaves
open. The block has one build parameter, `REG_NAMES`. -/

namespace Sys2Proof

/-- The values of the build parameter `REG_NAMES`: the naming convention of the Register Name table (R13, X10). -/
inductive RegNames where
  | numeric
  | abi
  deriving DecidableEq, Repr

/-- The default of `REG_NAMES` is `NUMERIC` (R13). -/
def Config.defaultRegNames : RegNames := .numeric

/-- FREE VALUE. What `instr_i` holds before it is first driven to a stable value: "any value" and "no claim may
depend on them" (spec/93 X9, R240, D20). It has no body, so no proof can see a value of it. Assumption log 2. -/
opaque Config.undrivenWord : Word

end Sys2Proof
end

