-- ==== Sys2Proof/Syntax.lean ====
section
/-! DEFINITION. The vocabulary of the decoder: formats, mnemonics, instructions, operands, decode errors and decode
results (spec/00_scope.md R18, spec/10_state.md R30, R31, spec/30_encoding.md R60, R61, R75, spec/60_exceptions.md R210),
and the shape of the Mnemonic Table's trie. -/

namespace Sys2Proof

/-- The closed enum `Format`, in the source's order (R18, R34). -/
inductive Format where
  | r
  | i
  | iLoad
  | s
  | sb
  | uPCRelative
  | uAbsolute
  | uj
  | csr
  deriving DecidableEq, Repr

/-- The 45 leaves of the Mnemonic Table, in the order of their ids (R61, R62). -/
inductive Mnemonic where
  | add
  | sub
  | sll
  | slt
  | sltu
  | xor
  | srl
  | sra
  | or
  | and
  | addi
  | slti
  | sltiu
  | xori
  | ori
  | andi
  | slli
  | srli
  | srai
  | jalr
  | lb
  | lh
  | lw
  | lbu
  | lhu
  | sb
  | sh
  | sw
  | beq
  | bne
  | blt
  | bge
  | bltu
  | bgeu
  | auipc
  | lui
  | jal
  | csrrw
  | csrrs
  | csrrc
  | csrrwi
  | csrrsi
  | csrrci
  | ecall
  | ebreak
  deriving DecidableEq, Repr

/-- One instruction, one constructor per row of spec/opcode_table.json. The arguments are the format's operands in
template order (R75): register indices, the reassembled unsigned immediate (R72), the CSR number `w[31:20]`.
The shifts keep all 12 bits `w[31:20]` in their immediate (R127 to R129), and `ecall` and `ebreak` keep the CSR template
whole (R197, R198); `WellFormed.lean` says which values of those fields the encodings admit. -/
inductive Instr where
  | add (rd rs1 rs2 : RegIdx)
  | sub (rd rs1 rs2 : RegIdx)
  | sll (rd rs1 rs2 : RegIdx)
  | slt (rd rs1 rs2 : RegIdx)
  | sltu (rd rs1 rs2 : RegIdx)
  | xor (rd rs1 rs2 : RegIdx)
  | srl (rd rs1 rs2 : RegIdx)
  | sra (rd rs1 rs2 : RegIdx)
  | or (rd rs1 rs2 : RegIdx)
  | and (rd rs1 rs2 : RegIdx)
  | addi (rd rs1 : RegIdx) (imm : Imm12)
  | slti (rd rs1 : RegIdx) (imm : Imm12)
  | sltiu (rd rs1 : RegIdx) (imm : Imm12)
  | xori (rd rs1 : RegIdx) (imm : Imm12)
  | ori (rd rs1 : RegIdx) (imm : Imm12)
  | andi (rd rs1 : RegIdx) (imm : Imm12)
  | slli (rd rs1 : RegIdx) (imm : Imm12)
  | srli (rd rs1 : RegIdx) (imm : Imm12)
  | srai (rd rs1 : RegIdx) (imm : Imm12)
  | jalr (rd rs1 : RegIdx) (imm : Imm12)
  | lb (rd : RegIdx) (imm : Imm12) (rs1 : RegIdx)
  | lh (rd : RegIdx) (imm : Imm12) (rs1 : RegIdx)
  | lw (rd : RegIdx) (imm : Imm12) (rs1 : RegIdx)
  | lbu (rd : RegIdx) (imm : Imm12) (rs1 : RegIdx)
  | lhu (rd : RegIdx) (imm : Imm12) (rs1 : RegIdx)
  | sb (rs2 : RegIdx) (imm : Imm12) (rs1 : RegIdx)
  | sh (rs2 : RegIdx) (imm : Imm12) (rs1 : RegIdx)
  | sw (rs2 : RegIdx) (imm : Imm12) (rs1 : RegIdx)
  | beq (rs1 rs2 : RegIdx) (imm : Imm12)
  | bne (rs1 rs2 : RegIdx) (imm : Imm12)
  | blt (rs1 rs2 : RegIdx) (imm : Imm12)
  | bge (rs1 rs2 : RegIdx) (imm : Imm12)
  | bltu (rs1 rs2 : RegIdx) (imm : Imm12)
  | bgeu (rs1 rs2 : RegIdx) (imm : Imm12)
  | auipc (rd : RegIdx) (imm : Imm20)
  | lui (rd : RegIdx) (imm : Imm20)
  | jal (rd : RegIdx) (imm : Imm20)
  | csrrw (rd : RegIdx) (csr : CsrNum) (rs1 : RegIdx)
  | csrrs (rd : RegIdx) (csr : CsrNum) (rs1 : RegIdx)
  | csrrc (rd : RegIdx) (csr : CsrNum) (rs1 : RegIdx)
  | csrrwi (rd : RegIdx) (csr : CsrNum) (rs1 : RegIdx)
  | csrrsi (rd : RegIdx) (csr : CsrNum) (rs1 : RegIdx)
  | csrrci (rd : RegIdx) (csr : CsrNum) (rs1 : RegIdx)
  | ecall (rd : RegIdx) (csr : CsrNum) (rs1 : RegIdx)
  | ebreak (rd : RegIdx) (csr : CsrNum) (rs1 : RegIdx)
  deriving DecidableEq, Repr

/-- The four operand kinds (R30). Immediates are unsigned and at most 20 bits; the value of a memory operand and a CSR
number have 12 bits. -/
inductive Operand where
  | reg (i : RegIdx)
  | imm (v : Imm20)
  | mem (v : Imm12) (i : RegIdx)
  | csr (v : CsrNum)
  deriving DecidableEq, Repr

/-- A Decoded Instruction: the record `mnem, fmt, ops` (R31). -/
structure Decoded where
  mnem : Mnemonic
  fmt : Format
  ops : List Operand
  deriving DecidableEq, Repr

/-- The fields an error can name (R210). -/
inductive Field where
  | opcode
  | funct3
  | funct7
  | funct12
  | rd
  | rs1
  | rs2
  deriving DecidableEq, Repr

/-- The error kinds (R210). `malformedInput` is the adapters' error: the block never drives it (R219, D26). -/
inductive ErrKind where
  | unrecognizedOpcode
  | unrecognizedFunct3
  | unrecognizedFunct7
  | unknownRegister
  | malformedInput
  deriving DecidableEq, Repr

/-- A decode error names its kind, the offending field and that field's value, zero-extended to 12 bits (R210). -/
structure DecodeError where
  kind : ErrKind
  field : Field
  value : BitVec 12
  deriving DecidableEq, Repr

/-- The result of one decode: a Decoded Instruction or a decode error, never both (R31). -/
inductive Result where
  | decoded (d : Decoded)
  | error (e : DecodeError)
  deriving DecidableEq, Repr

/-- What a funct3 entry of the trie holds: a leaf, or a third level keyed by funct7 or by funct12 (R61, R67). -/
inductive Funct3Entry where
  | leaf (m : Mnemonic)
  | byFunct7 (t : List (Funct7 × Mnemonic))
  | byFunct12 (t : List (Funct12 × Mnemonic))
  deriving DecidableEq, Repr

/-- What an opcode entry of the trie holds: a direct leaf, or a level keyed by funct3 (R61, R65, R66). -/
inductive OpcodeEntry where
  | leaf (m : Mnemonic)
  | byFunct3 (t : List (Funct3 × Funct3Entry))
  deriving DecidableEq, Repr

end Sys2Proof
end

