-- ==== Sys2Proof/WellFormed.lean ====
section
/-! DEFINITION. Which instruction terms an instruction word can carry. Every field of an instruction is exactly as wide as
its bits, so the only checks are those of the operand fields that are trie keys as well (spec/30_encoding.md R57, R67):
the upper seven immediate bits of the three shifts (R127 to R129) and the CSR field of `ecall` and `ebreak`
(R197, R198). -/

namespace Sys2Proof

/-- The check of each instruction: `true` where a word exists that carries these operands. -/
def Instr.wellFormed : Instr → Bool
  | .add _ _ _ => true
  | .sub _ _ _ => true
  | .sll _ _ _ => true
  | .slt _ _ _ => true
  | .sltu _ _ _ => true
  | .xor _ _ _ => true
  | .srl _ _ _ => true
  | .sra _ _ _ => true
  | .or _ _ _ => true
  | .and _ _ _ => true
  | .addi _ _ _ => true
  | .slti _ _ _ => true
  | .sltiu _ _ _ => true
  | .xori _ _ _ => true
  | .ori _ _ _ => true
  | .andi _ _ _ => true
  | .slli _ _ imm => imm.extractLsb' 5 7 == 0b0000000#7
  | .srli _ _ imm => imm.extractLsb' 5 7 == 0b0000000#7
  | .srai _ _ imm => imm.extractLsb' 5 7 == 0b0100000#7
  | .jalr _ _ _ => true
  | .lb _ _ _ => true
  | .lh _ _ _ => true
  | .lw _ _ _ => true
  | .lbu _ _ _ => true
  | .lhu _ _ _ => true
  | .sb _ _ _ => true
  | .sh _ _ _ => true
  | .sw _ _ _ => true
  | .beq _ _ _ => true
  | .bne _ _ _ => true
  | .blt _ _ _ => true
  | .bge _ _ _ => true
  | .bltu _ _ _ => true
  | .bgeu _ _ _ => true
  | .auipc _ _ => true
  | .lui _ _ => true
  | .jal _ _ => true
  | .csrrw _ _ _ => true
  | .csrrs _ _ _ => true
  | .csrrc _ _ _ => true
  | .csrrwi _ _ _ => true
  | .csrrsi _ _ _ => true
  | .csrrci _ _ _ => true
  | .ecall _ csr _ => csr == 0#12
  | .ebreak _ csr _ => csr == 1#12

end Sys2Proof
end

