-- ==== Sys2Proof/Decode.lean ====
section
/-! DEFINITION. The Field Extractor's slices (spec/10_state.md R23, spec/30_encoding.md R56), the Format table and the
Mnemonic Table (R60, R61), the trie walk (R63), immediate reassembly (R72), the decoder, total on every word
(R221), and after it the encoder, written from the match words of spec/opcode_table.json. -/

namespace Sys2Proof

/-! ## Bit fields -/

/-- `w[6:0]` -/
def fieldOpcode (w : Word) : Opcode := w.extractLsb' 0 7
/-- `w[14:12]` -/
def fieldFunct3 (w : Word) : Funct3 := w.extractLsb' 12 3
/-- `w[31:25]` -/
def fieldFunct7 (w : Word) : Funct7 := w.extractLsb' 25 7
/-- `w[31:20]`: funct12, the I immediate and the CSR field -/
def field31_20 (w : Word) : BitVec 12 := w.extractLsb' 20 12
/-- `w[11:7]` -/
def fieldRd (w : Word) : RegIdx := w.extractLsb' 7 5
/-- `w[19:15]` -/
def fieldRs1 (w : Word) : RegIdx := w.extractLsb' 15 5
/-- `w[24:20]` -/
def fieldRs2 (w : Word) : RegIdx := w.extractLsb' 20 5
/-- `w[31:25]`, the S immediate's high part -/
def field31_25 (w : Word) : BitVec 7 := w.extractLsb' 25 7
/-- `w[11:7]`, the S immediate's low part -/
def field11_7 (w : Word) : BitVec 5 := w.extractLsb' 7 5
/-- `w[31]` -/
def field31 (w : Word) : BitVec 1 := w.extractLsb' 31 1
/-- `w[7]` -/
def field7 (w : Word) : BitVec 1 := w.extractLsb' 7 1
/-- `w[30:25]` -/
def field30_25 (w : Word) : BitVec 6 := w.extractLsb' 25 6
/-- `w[11:8]` -/
def field11_8 (w : Word) : BitVec 4 := w.extractLsb' 8 4
/-- `w[31:12]` -/
def field31_12 (w : Word) : BitVec 20 := w.extractLsb' 12 20
/-- `w[19:12]` -/
def field19_12 (w : Word) : BitVec 8 := w.extractLsb' 12 8
/-- `w[20]` -/
def field20 (w : Word) : BitVec 1 := w.extractLsb' 20 1
/-- `w[30:21]` -/
def field30_21 (w : Word) : BitVec 10 := w.extractLsb' 21 10

/-! ## Immediate reassembly (R72): concatenations, most significant part first; no sign extension (R73), no scaling (R74) -/

/-- I and I_Load: `w[31:20]`. -/
def immI (w : Word) : Imm12 := field31_20 w
/-- S: `w[31:25] ++ w[11:7]` (R154: the high part is the more significant one). -/
def immS (w : Word) : Imm12 := field31_25 w ++ field11_7 w
/-- SB: `w[31] ++ w[7] ++ w[30:25] ++ w[11:8]`. -/
def immSB (w : Word) : Imm12 := field31 w ++ field7 w ++ field30_25 w ++ field11_8 w
/-- U_PCRelative and U_Absolute: `w[31:12]`. -/
def immU (w : Word) : Imm20 := field31_12 w
/-- UJ: `w[31] ++ w[19:12] ++ w[20] ++ w[30:21]`. -/
def immUJ (w : Word) : Imm20 := field31 w ++ field19_12 w ++ field20 w ++ field30_21 w

/-! ## The static tables -/

/-- `lookup(T, k)`: the entry of a static table at a key, or absent (R16). -/
def lookup {κ α : Type} [DecidableEq κ] : List (κ × α) → κ → Option α
  | [], _ => none
  | (k', a) :: rest, k => if k' = k then some a else lookup rest k

/-- The Format table: exactly ten entries (R60). -/
def opcodeFormatTable : List (Opcode × Format) :=
  [ (0b0110011#7, .r), (0b0010011#7, .i), (0b1100111#7, .i), (0b0000011#7, .iLoad), (0b0100011#7, .s),
    (0b1100011#7, .sb), (0b0010111#7, .uPCRelative), (0b0110111#7, .uAbsolute), (0b1101111#7, .uj), (0b1110011#7, .csr) ]

/-- The OP level of the trie (R61). -/
def trieOp : List (Funct3 × Funct3Entry) :=
  [ (0b000#3, .byFunct7 [(0b0000000#7, .add), (0b0100000#7, .sub)]),
    (0b001#3, .byFunct7 [(0b0000000#7, .sll)]),
    (0b010#3, .byFunct7 [(0b0000000#7, .slt)]),
    (0b011#3, .byFunct7 [(0b0000000#7, .sltu)]),
    (0b100#3, .byFunct7 [(0b0000000#7, .xor)]),
    (0b101#3, .byFunct7 [(0b0000000#7, .srl), (0b0100000#7, .sra)]),
    (0b110#3, .byFunct7 [(0b0000000#7, .or)]),
    (0b111#3, .byFunct7 [(0b0000000#7, .and)]) ]

/-- The OP-IMM level of the trie (R61). -/
def trieOpImm : List (Funct3 × Funct3Entry) :=
  [ (0b000#3, .leaf .addi),
    (0b001#3, .byFunct7 [(0b0000000#7, .slli)]),
    (0b010#3, .leaf .slti),
    (0b011#3, .leaf .sltiu),
    (0b100#3, .leaf .xori),
    (0b101#3, .byFunct7 [(0b0000000#7, .srli), (0b0100000#7, .srai)]),
    (0b110#3, .leaf .ori),
    (0b111#3, .leaf .andi) ]

/-- The JALR level of the trie (R61, R130). -/
def trieJalr : List (Funct3 × Funct3Entry) := [ (0b000#3, .leaf .jalr) ]

/-- The LOAD level of the trie (R61). -/
def trieLoad : List (Funct3 × Funct3Entry) :=
  [ (0b000#3, .leaf .lb), (0b001#3, .leaf .lh), (0b010#3, .leaf .lw), (0b100#3, .leaf .lbu), (0b101#3, .leaf .lhu) ]

/-- The STORE level of the trie (R61). -/
def trieStore : List (Funct3 × Funct3Entry) :=
  [ (0b000#3, .leaf .sb), (0b001#3, .leaf .sh), (0b010#3, .leaf .sw) ]

/-- The BRANCH level of the trie (R61). -/
def trieBranch : List (Funct3 × Funct3Entry) :=
  [ (0b000#3, .leaf .beq), (0b001#3, .leaf .bne), (0b100#3, .leaf .blt), (0b101#3, .leaf .bge),
    (0b110#3, .leaf .bltu), (0b111#3, .leaf .bgeu) ]

/-- The SYSTEM level of the trie; its funct3 `000` entry is keyed by funct12 (R61, R67). -/
def trieSystem : List (Funct3 × Funct3Entry) :=
  [ (0b000#3, .byFunct12 [(0b000000000000#12, .ecall), (0b000000000001#12, .ebreak)]),
    (0b001#3, .leaf .csrrw), (0b010#3, .leaf .csrrs), (0b011#3, .leaf .csrrc),
    (0b101#3, .leaf .csrrwi), (0b110#3, .leaf .csrrsi), (0b111#3, .leaf .csrrci) ]

/-- The Mnemonic Table: a trie with the same ten opcode keys as the Format table (R61, R69). -/
def mnemonicTable : List (Opcode × OpcodeEntry) :=
  [ (0b0110011#7, .byFunct3 trieOp), (0b0010011#7, .byFunct3 trieOpImm), (0b1100111#7, .byFunct3 trieJalr),
    (0b0000011#7, .byFunct3 trieLoad), (0b0100011#7, .byFunct3 trieStore), (0b1100011#7, .byFunct3 trieBranch),
    (0b0010111#7, .leaf .auipc), (0b0110111#7, .leaf .lui), (0b1101111#7, .leaf .jal), (0b1110011#7, .byFunct3 trieSystem) ]

/-! ## The trie walk (R63 to R67) -/

/-- `raise UnrecognizedOpcode(opcode, opcode)` (R64, R216). -/
def errOpcode (op : Opcode) : DecodeError := ⟨.unrecognizedOpcode, .opcode, op.setWidth 12⟩
/-- `raise UnrecognizedFunct3(funct3, funct3)` (R66, R217). -/
def errFunct3 (f3 : Funct3) : DecodeError := ⟨.unrecognizedFunct3, .funct3, f3.setWidth 12⟩
/-- `raise UnrecognizedFunct7(funct7, key)` (R67, R218). -/
def errFunct7 (f7 : Funct7) : DecodeError := ⟨.unrecognizedFunct7, .funct7, f7.setWidth 12⟩
/-- `raise UnrecognizedFunct7(funct12, key)`: the error keeps its name, the field is `funct12` (R67, R218). -/
def errFunct12 (f12 : Funct12) : DecodeError := ⟨.unrecognizedFunct7, .funct12, f12⟩

/-- The third level of the walk: the node found under funct3 (R66, R67). -/
def walkFunct3Entry (f7 : Funct7) (f12 : Funct12) : Funct3Entry → Except DecodeError Mnemonic
  | .leaf m => .ok m
  | .byFunct7 t =>
    match lookup t f7 with
    | none => .error (errFunct7 f7)
    | some m => .ok m
  | .byFunct12 t =>
    match lookup t f12 with
    | none => .error (errFunct12 f12)
    | some m => .ok m

/-- The walk below an opcode entry (R65, R66). -/
def walkOpcodeEntry (f3 : Funct3) (f7 : Funct7) (f12 : Funct12) : OpcodeEntry → Except DecodeError Mnemonic
  | .leaf m => .ok m
  | .byFunct3 t =>
    match lookup t f3 with
    | none => .error (errFunct3 f3)
    | some e => walkFunct3Entry f7 f12 e

/-- The resolution algorithm over the four key fields (R63). The second `none` is dead: the two tables have the same
opcode keys (R69), so a lookup in the Mnemonic Table after one in the Format table never fails. -/
def walk (op : Opcode) (f3 : Funct3) (f7 : Funct7) (f12 : Funct12) : Except DecodeError (Mnemonic × Format) :=
  match lookup opcodeFormatTable op with
  | none => .error (errOpcode op)
  | some fmt =>
    match lookup mnemonicTable op with
    | none => .error (errOpcode op)
    | some e =>
      match walkOpcodeEntry f3 f7 f12 e with
      | .error err => .error err
      | .ok m => .ok (m, fmt)

/-- The walk of a word: its keys are the extractor's fields (R56, R63). -/
def walkWord (w : Word) : Except DecodeError (Mnemonic × Format) :=
  walk (fieldOpcode w) (fieldFunct3 w) (fieldFunct7 w) (field31_20 w)

/-! ## The decoder -/

/-- The instruction a word carries once its mnemonic is resolved: its operands from the word's fields (R75). -/
def instrOf (w : Word) : Mnemonic → Instr
  | .add => .add (fieldRd w) (fieldRs1 w) (fieldRs2 w)
  | .sub => .sub (fieldRd w) (fieldRs1 w) (fieldRs2 w)
  | .sll => .sll (fieldRd w) (fieldRs1 w) (fieldRs2 w)
  | .slt => .slt (fieldRd w) (fieldRs1 w) (fieldRs2 w)
  | .sltu => .sltu (fieldRd w) (fieldRs1 w) (fieldRs2 w)
  | .xor => .xor (fieldRd w) (fieldRs1 w) (fieldRs2 w)
  | .srl => .srl (fieldRd w) (fieldRs1 w) (fieldRs2 w)
  | .sra => .sra (fieldRd w) (fieldRs1 w) (fieldRs2 w)
  | .or => .or (fieldRd w) (fieldRs1 w) (fieldRs2 w)
  | .and => .and (fieldRd w) (fieldRs1 w) (fieldRs2 w)
  | .addi => .addi (fieldRd w) (fieldRs1 w) (immI w)
  | .slti => .slti (fieldRd w) (fieldRs1 w) (immI w)
  | .sltiu => .sltiu (fieldRd w) (fieldRs1 w) (immI w)
  | .xori => .xori (fieldRd w) (fieldRs1 w) (immI w)
  | .ori => .ori (fieldRd w) (fieldRs1 w) (immI w)
  | .andi => .andi (fieldRd w) (fieldRs1 w) (immI w)
  | .slli => .slli (fieldRd w) (fieldRs1 w) (immI w)
  | .srli => .srli (fieldRd w) (fieldRs1 w) (immI w)
  | .srai => .srai (fieldRd w) (fieldRs1 w) (immI w)
  | .jalr => .jalr (fieldRd w) (fieldRs1 w) (immI w)
  | .lb => .lb (fieldRd w) (immI w) (fieldRs1 w)
  | .lh => .lh (fieldRd w) (immI w) (fieldRs1 w)
  | .lw => .lw (fieldRd w) (immI w) (fieldRs1 w)
  | .lbu => .lbu (fieldRd w) (immI w) (fieldRs1 w)
  | .lhu => .lhu (fieldRd w) (immI w) (fieldRs1 w)
  | .sb => .sb (fieldRs2 w) (immS w) (fieldRs1 w)
  | .sh => .sh (fieldRs2 w) (immS w) (fieldRs1 w)
  | .sw => .sw (fieldRs2 w) (immS w) (fieldRs1 w)
  | .beq => .beq (fieldRs1 w) (fieldRs2 w) (immSB w)
  | .bne => .bne (fieldRs1 w) (fieldRs2 w) (immSB w)
  | .blt => .blt (fieldRs1 w) (fieldRs2 w) (immSB w)
  | .bge => .bge (fieldRs1 w) (fieldRs2 w) (immSB w)
  | .bltu => .bltu (fieldRs1 w) (fieldRs2 w) (immSB w)
  | .bgeu => .bgeu (fieldRs1 w) (fieldRs2 w) (immSB w)
  | .auipc => .auipc (fieldRd w) (immU w)
  | .lui => .lui (fieldRd w) (immU w)
  | .jal => .jal (fieldRd w) (immUJ w)
  | .csrrw => .csrrw (fieldRd w) (field31_20 w) (fieldRs1 w)
  | .csrrs => .csrrs (fieldRd w) (field31_20 w) (fieldRs1 w)
  | .csrrc => .csrrc (fieldRd w) (field31_20 w) (fieldRs1 w)
  | .csrrwi => .csrrwi (fieldRd w) (field31_20 w) (fieldRs1 w)
  | .csrrsi => .csrrsi (fieldRd w) (field31_20 w) (fieldRs1 w)
  | .csrrci => .csrrci (fieldRd w) (field31_20 w) (fieldRs1 w)
  | .ecall => .ecall (fieldRd w) (field31_20 w) (fieldRs1 w)
  | .ebreak => .ebreak (fieldRd w) (field31_20 w) (fieldRs1 w)

/-- The decoder, total on every word (R221): the instruction the trie walk resolves, or the decode error it raises. Only
trie keys are checked (R78). -/
def decode (w : Word) : Except DecodeError Instr :=
  match walkWord w with
  | .error e => .error e
  | .ok (m, _) => .ok (instrOf w m)

/-- The word whose bits are the low `nbits` bits of `w`, every bit above them zero. -/
def wordOfTable (nbits w : Nat) : Word := BitVec.ofNat 32 (w % 2 ^ nbits)

/-- The instruction the decoder reads from a word given as the opcode table numbers its bits: bit 0 least significant
(R15). The block receives the whole 32-bit word and no bytes (R41). -/
def decodeTableWord (nbits w : Nat) : Option Instr :=
  match decode (wordOfTable nbits w) with
  | .ok i => some i
  | .error _ => none

/-! ## The opcode table and the encoder -/

/-- The mnemonic of an instruction. -/
def Instr.mnemonic : Instr → Mnemonic
  | .add _ _ _ => .add
  | .sub _ _ _ => .sub
  | .sll _ _ _ => .sll
  | .slt _ _ _ => .slt
  | .sltu _ _ _ => .sltu
  | .xor _ _ _ => .xor
  | .srl _ _ _ => .srl
  | .sra _ _ _ => .sra
  | .or _ _ _ => .or
  | .and _ _ _ => .and
  | .addi _ _ _ => .addi
  | .slti _ _ _ => .slti
  | .sltiu _ _ _ => .sltiu
  | .xori _ _ _ => .xori
  | .ori _ _ _ => .ori
  | .andi _ _ _ => .andi
  | .slli _ _ _ => .slli
  | .srli _ _ _ => .srli
  | .srai _ _ _ => .srai
  | .jalr _ _ _ => .jalr
  | .lb _ _ _ => .lb
  | .lh _ _ _ => .lh
  | .lw _ _ _ => .lw
  | .lbu _ _ _ => .lbu
  | .lhu _ _ _ => .lhu
  | .sb _ _ _ => .sb
  | .sh _ _ _ => .sh
  | .sw _ _ _ => .sw
  | .beq _ _ _ => .beq
  | .bne _ _ _ => .bne
  | .blt _ _ _ => .blt
  | .bge _ _ _ => .bge
  | .bltu _ _ _ => .bltu
  | .bgeu _ _ _ => .bgeu
  | .auipc _ _ => .auipc
  | .lui _ _ => .lui
  | .jal _ _ => .jal
  | .csrrw _ _ _ => .csrrw
  | .csrrs _ _ _ => .csrrs
  | .csrrc _ _ _ => .csrrc
  | .csrrwi _ _ _ => .csrrwi
  | .csrrsi _ _ _ => .csrrsi
  | .csrrci _ _ _ => .csrrci
  | .ecall _ _ _ => .ecall
  | .ebreak _ _ _ => .ebreak

/-- The `match` column of spec/opcode_table.json. -/
def Mnemonic.matchWord : Mnemonic → Word
  | .add => 0x00000033#32
  | .sub => 0x40000033#32
  | .sll => 0x00001033#32
  | .slt => 0x00002033#32
  | .sltu => 0x00003033#32
  | .xor => 0x00004033#32
  | .srl => 0x00005033#32
  | .sra => 0x40005033#32
  | .or => 0x00006033#32
  | .and => 0x00007033#32
  | .addi => 0x00000013#32
  | .slti => 0x00002013#32
  | .sltiu => 0x00003013#32
  | .xori => 0x00004013#32
  | .ori => 0x00006013#32
  | .andi => 0x00007013#32
  | .slli => 0x00001013#32
  | .srli => 0x00005013#32
  | .srai => 0x40005013#32
  | .jalr => 0x00000067#32
  | .lb => 0x00000003#32
  | .lh => 0x00001003#32
  | .lw => 0x00002003#32
  | .lbu => 0x00004003#32
  | .lhu => 0x00005003#32
  | .sb => 0x00000023#32
  | .sh => 0x00001023#32
  | .sw => 0x00002023#32
  | .beq => 0x00000063#32
  | .bne => 0x00001063#32
  | .blt => 0x00004063#32
  | .bge => 0x00005063#32
  | .bltu => 0x00006063#32
  | .bgeu => 0x00007063#32
  | .auipc => 0x00000017#32
  | .lui => 0x00000037#32
  | .jal => 0x0000006F#32
  | .csrrw => 0x00001073#32
  | .csrrs => 0x00002073#32
  | .csrrc => 0x00003073#32
  | .csrrwi => 0x00005073#32
  | .csrrsi => 0x00006073#32
  | .csrrci => 0x00007073#32
  | .ecall => 0x00000073#32
  | .ebreak => 0x00100073#32

/-- The `mask` column of spec/opcode_table.json. -/
def Mnemonic.maskWord : Mnemonic → Word
  | .add => 0xFE00707F#32
  | .sub => 0xFE00707F#32
  | .sll => 0xFE00707F#32
  | .slt => 0xFE00707F#32
  | .sltu => 0xFE00707F#32
  | .xor => 0xFE00707F#32
  | .srl => 0xFE00707F#32
  | .sra => 0xFE00707F#32
  | .or => 0xFE00707F#32
  | .and => 0xFE00707F#32
  | .addi => 0x0000707F#32
  | .slti => 0x0000707F#32
  | .sltiu => 0x0000707F#32
  | .xori => 0x0000707F#32
  | .ori => 0x0000707F#32
  | .andi => 0x0000707F#32
  | .slli => 0xFE00707F#32
  | .srli => 0xFE00707F#32
  | .srai => 0xFE00707F#32
  | .jalr => 0x0000707F#32
  | .lb => 0x0000707F#32
  | .lh => 0x0000707F#32
  | .lw => 0x0000707F#32
  | .lbu => 0x0000707F#32
  | .lhu => 0x0000707F#32
  | .sb => 0x0000707F#32
  | .sh => 0x0000707F#32
  | .sw => 0x0000707F#32
  | .beq => 0x0000707F#32
  | .bne => 0x0000707F#32
  | .blt => 0x0000707F#32
  | .bge => 0x0000707F#32
  | .bltu => 0x0000707F#32
  | .bgeu => 0x0000707F#32
  | .auipc => 0x0000007F#32
  | .lui => 0x0000007F#32
  | .jal => 0x0000007F#32
  | .csrrw => 0x0000707F#32
  | .csrrs => 0x0000707F#32
  | .csrrc => 0x0000707F#32
  | .csrrwi => 0x0000707F#32
  | .csrrsi => 0x0000707F#32
  | .csrrci => 0x0000707F#32
  | .ecall => 0xFFF0707F#32
  | .ebreak => 0xFFF0707F#32

/-- All 45 mnemonics, in the order of their ids (R62). -/
def allMnemonics : List Mnemonic :=
  [ .add, .sub, .sll, .slt, .sltu, .xor, .srl, .sra, .or,
    .and, .addi, .slti, .sltiu, .xori, .ori, .andi, .slli, .srli,
    .srai, .jalr, .lb, .lh, .lw, .lbu, .lhu, .sb, .sh,
    .sw, .beq, .bne, .blt, .bge, .bltu, .bgeu, .auipc, .lui,
    .jal, .csrrw, .csrrs, .csrrc, .csrrwi, .csrrsi, .csrrci, .ecall, .ebreak ]

/-- The word with the six fields of R57, most significant first. -/
def pack (f7 : BitVec 7) (rs2 rs1 : BitVec 5) (f3 : BitVec 3) (rd : BitVec 5) (op : BitVec 7) : Word :=
  f7 ++ rs2 ++ rs1 ++ f3 ++ rd ++ op

/-- Format R (R57). -/
def encodeR (m : Mnemonic) (rd rs1 rs2 : RegIdx) : Word :=
  pack (fieldFunct7 m.matchWord) rs2 rs1 (fieldFunct3 m.matchWord) rd (fieldOpcode m.matchWord)

/-- Formats I and I_Load: immediate bits 11..5 and 4..0 in `w[31:25]` and `w[24:20]` (R57, R72). -/
def encodeI (m : Mnemonic) (rd rs1 : RegIdx) (imm : Imm12) : Word :=
  pack (imm.extractLsb' 5 7) (imm.extractLsb' 0 5) rs1 (fieldFunct3 m.matchWord) rd (fieldOpcode m.matchWord)

/-- Format S: immediate bits 11..5 in `w[31:25]`, 4..0 in `w[11:7]` (R150). -/
def encodeS (m : Mnemonic) (rs2 rs1 : RegIdx) (imm : Imm12) : Word :=
  pack (imm.extractLsb' 5 7) rs2 rs1 (fieldFunct3 m.matchWord) (imm.extractLsb' 0 5) (fieldOpcode m.matchWord)

/-- Format SB: immediate bit 11 in `w[31]`, 10 in `w[7]`, 9..4 in `w[30:25]`, 3..0 in `w[11:8]` (R160). -/
def encodeSB (m : Mnemonic) (rs1 rs2 : RegIdx) (imm : Imm12) : Word :=
  pack (imm.extractLsb' 11 1 ++ imm.extractLsb' 4 6) rs2 rs1 (fieldFunct3 m.matchWord)
    (imm.extractLsb' 0 4 ++ imm.extractLsb' 10 1) (fieldOpcode m.matchWord)

/-- Formats U_PCRelative and U_Absolute: the immediate in `w[31:12]` (R170). -/
def encodeU (m : Mnemonic) (rd : RegIdx) (imm : Imm20) : Word :=
  pack (imm.extractLsb' 13 7) (imm.extractLsb' 8 5) (imm.extractLsb' 3 5) (imm.extractLsb' 0 3) rd (fieldOpcode m.matchWord)

/-- Format UJ: immediate bit 19 in `w[31]`, 18..11 in `w[19:12]`, 10 in `w[20]`, 9..0 in `w[30:21]` (R180). -/
def encodeUJ (m : Mnemonic) (rd : RegIdx) (imm : Imm20) : Word :=
  pack (imm.extractLsb' 19 1 ++ imm.extractLsb' 4 6) (imm.extractLsb' 0 4 ++ imm.extractLsb' 10 1)
    (imm.extractLsb' 14 5) (imm.extractLsb' 11 3) rd (fieldOpcode m.matchWord)

/-- The word of a well-formed instruction. -/
def encode : Instr → Word
  | .add rd rs1 rs2 => encodeR .add rd rs1 rs2
  | .sub rd rs1 rs2 => encodeR .sub rd rs1 rs2
  | .sll rd rs1 rs2 => encodeR .sll rd rs1 rs2
  | .slt rd rs1 rs2 => encodeR .slt rd rs1 rs2
  | .sltu rd rs1 rs2 => encodeR .sltu rd rs1 rs2
  | .xor rd rs1 rs2 => encodeR .xor rd rs1 rs2
  | .srl rd rs1 rs2 => encodeR .srl rd rs1 rs2
  | .sra rd rs1 rs2 => encodeR .sra rd rs1 rs2
  | .or rd rs1 rs2 => encodeR .or rd rs1 rs2
  | .and rd rs1 rs2 => encodeR .and rd rs1 rs2
  | .addi rd rs1 imm => encodeI .addi rd rs1 imm
  | .slti rd rs1 imm => encodeI .slti rd rs1 imm
  | .sltiu rd rs1 imm => encodeI .sltiu rd rs1 imm
  | .xori rd rs1 imm => encodeI .xori rd rs1 imm
  | .ori rd rs1 imm => encodeI .ori rd rs1 imm
  | .andi rd rs1 imm => encodeI .andi rd rs1 imm
  | .slli rd rs1 imm => encodeI .slli rd rs1 imm
  | .srli rd rs1 imm => encodeI .srli rd rs1 imm
  | .srai rd rs1 imm => encodeI .srai rd rs1 imm
  | .jalr rd rs1 imm => encodeI .jalr rd rs1 imm
  | .lb rd imm rs1 => encodeI .lb rd rs1 imm
  | .lh rd imm rs1 => encodeI .lh rd rs1 imm
  | .lw rd imm rs1 => encodeI .lw rd rs1 imm
  | .lbu rd imm rs1 => encodeI .lbu rd rs1 imm
  | .lhu rd imm rs1 => encodeI .lhu rd rs1 imm
  | .sb rs2 imm rs1 => encodeS .sb rs2 rs1 imm
  | .sh rs2 imm rs1 => encodeS .sh rs2 rs1 imm
  | .sw rs2 imm rs1 => encodeS .sw rs2 rs1 imm
  | .beq rs1 rs2 imm => encodeSB .beq rs1 rs2 imm
  | .bne rs1 rs2 imm => encodeSB .bne rs1 rs2 imm
  | .blt rs1 rs2 imm => encodeSB .blt rs1 rs2 imm
  | .bge rs1 rs2 imm => encodeSB .bge rs1 rs2 imm
  | .bltu rs1 rs2 imm => encodeSB .bltu rs1 rs2 imm
  | .bgeu rs1 rs2 imm => encodeSB .bgeu rs1 rs2 imm
  | .auipc rd imm => encodeU .auipc rd imm
  | .lui rd imm => encodeU .lui rd imm
  | .jal rd imm => encodeUJ .jal rd imm
  | .csrrw rd csr rs1 => encodeI .csrrw rd rs1 csr
  | .csrrs rd csr rs1 => encodeI .csrrs rd rs1 csr
  | .csrrc rd csr rs1 => encodeI .csrrc rd rs1 csr
  | .csrrwi rd csr rs1 => encodeI .csrrwi rd rs1 csr
  | .csrrsi rd csr rs1 => encodeI .csrrsi rd rs1 csr
  | .csrrci rd csr rs1 => encodeI .csrrci rd rs1 csr
  | .ecall rd csr rs1 => encodeI .ecall rd rs1 csr
  | .ebreak rd csr rs1 => encodeI .ebreak rd rs1 csr

end Sys2Proof
end

