-- ==== Sys2Proof/Machine/Flags.lean ====
section
/-! DEFINITION. The numeric codes on the output ports. The block has no flags and no condition codes (spec/10_state.md
R27): its only status is `ok_o`, `err_o`, `err_field_o` and `err_value_o`, recomputed for every input word. -/

namespace Sys2Proof

/-- The code of an error kind on `err_o` (R210). -/
def ErrKind.code : ErrKind → BitVec 3
  | .unrecognizedOpcode => 1#3
  | .unrecognizedFunct3 => 2#3
  | .unrecognizedFunct7 => 3#3
  | .unknownRegister => 4#3
  | .malformedInput => 5#3

/-- The code of the offending field on `err_field_o` (R210). -/
def Field.code : Field → BitVec 3
  | .opcode => 1#3
  | .funct3 => 2#3
  | .funct7 => 3#3
  | .funct12 => 4#3
  | .rd => 5#3
  | .rs1 => 6#3
  | .rs2 => 7#3

/-- The code of a format on `fmt_o` (R34). -/
def Format.code : Format → BitVec 4
  | .r => 0#4
  | .i => 1#4
  | .iLoad => 2#4
  | .s => 3#4
  | .sb => 4#4
  | .uPCRelative => 5#4
  | .uAbsolute => 6#4
  | .uj => 7#4
  | .csr => 8#4

/-- `NONE` on `fmt_o` (R34). -/
def fmtNone : BitVec 4 := 15#4

/-- The id of a mnemonic on `mnem_o` (R62); `NONE` is 0. -/
def Mnemonic.id : Mnemonic → BitVec 6
  | .add => 1#6
  | .sub => 2#6
  | .sll => 3#6
  | .slt => 4#6
  | .sltu => 5#6
  | .xor => 6#6
  | .srl => 7#6
  | .sra => 8#6
  | .or => 9#6
  | .and => 10#6
  | .addi => 11#6
  | .slti => 12#6
  | .sltiu => 13#6
  | .xori => 14#6
  | .ori => 15#6
  | .andi => 16#6
  | .slli => 17#6
  | .srli => 18#6
  | .srai => 19#6
  | .jalr => 20#6
  | .lb => 21#6
  | .lh => 22#6
  | .lw => 23#6
  | .lbu => 24#6
  | .lhu => 25#6
  | .sb => 26#6
  | .sh => 27#6
  | .sw => 28#6
  | .beq => 29#6
  | .bne => 30#6
  | .blt => 31#6
  | .bge => 32#6
  | .bltu => 33#6
  | .bgeu => 34#6
  | .auipc => 35#6
  | .lui => 36#6
  | .jal => 37#6
  | .csrrw => 38#6
  | .csrrs => 39#6
  | .csrrc => 40#6
  | .csrrwi => 41#6
  | .csrrsi => 42#6
  | .csrrci => 43#6
  | .ecall => 44#6
  | .ebreak => 45#6

end Sys2Proof
end

