-- ==== Sys2Proof/Machine/Names.lean ====
section
/-! DEFINITION. The Register Name table and the canonical text of a decode result (spec/10_state.md R24, R30,
spec/30_encoding.md R80, R81, spec/60_exceptions.md R212). -/

namespace Sys2Proof

/-- `dec(v)`: the unsigned decimal numeral of a natural number, no sign, no prefix, no leading zeros (R16). -/
def dec (v : Nat) : String := Nat.repr v

/-- The ABI column of the Register Name table (R24): index 8 is `s0` and never `fp`. -/
def abiNames : List String :=
  ["zero", "ra", "sp", "gp", "tp", "t0", "t1", "t2"] ++
  ["s0", "s1", "a0", "a1", "a2", "a3", "a4", "a5"] ++
  ["a6", "a7", "s2", "s3", "s4", "s5", "s6", "s7"] ++
  ["s8", "s9", "s10", "s11", "t3", "t4", "t5", "t6"]

/-- The NUMERIC column of the Register Name table: `x0` to `x31` (R24). -/
def numericNames : List String := (List.range 32).map fun i => "x" ++ dec i

/-- The Register Name table of the built `REG_NAMES`: one of the block's three constant tables (R21, R24). -/
def regNameTable : RegNames → List String
  | .numeric => numericNames
  | .abi => abiNames

/-- `RegName(i)`: the table lookup, absent where the table has no entry (R24, R76). -/
def regName (conv : RegNames) (i : RegIdx) : Option String := (regNameTable conv)[i.toNat]?

/-- The mnemonic string: the lower-case name (R62, R81). -/
def Mnemonic.name : Mnemonic → String
  | .add => "add"
  | .sub => "sub"
  | .sll => "sll"
  | .slt => "slt"
  | .sltu => "sltu"
  | .xor => "xor"
  | .srl => "srl"
  | .sra => "sra"
  | .or => "or"
  | .and => "and"
  | .addi => "addi"
  | .slti => "slti"
  | .sltiu => "sltiu"
  | .xori => "xori"
  | .ori => "ori"
  | .andi => "andi"
  | .slli => "slli"
  | .srli => "srli"
  | .srai => "srai"
  | .jalr => "jalr"
  | .lb => "lb"
  | .lh => "lh"
  | .lw => "lw"
  | .lbu => "lbu"
  | .lhu => "lhu"
  | .sb => "sb"
  | .sh => "sh"
  | .sw => "sw"
  | .beq => "beq"
  | .bne => "bne"
  | .blt => "blt"
  | .bge => "bge"
  | .bltu => "bltu"
  | .bgeu => "bgeu"
  | .auipc => "auipc"
  | .lui => "lui"
  | .jal => "jal"
  | .csrrw => "csrrw"
  | .csrrs => "csrrs"
  | .csrrc => "csrrc"
  | .csrrwi => "csrrwi"
  | .csrrsi => "csrrsi"
  | .csrrci => "csrrci"
  | .ecall => "ecall"
  | .ebreak => "ebreak"

/-- The text of a register operand. The table is complete (R25), so the empty string never stands for a name. -/
def regText (conv : RegNames) (i : RegIdx) : String := (regName conv i).getD ""

/-- The text of an operand (R30). -/
def Operand.text (conv : RegNames) : Operand → String
  | .reg i => regText conv i
  | .imm v => dec v.toNat
  | .mem v i => dec v.toNat ++ "(" ++ regText conv i ++ ")"
  | .csr v => dec v.toNat

/-- The ordered list of operand strings: the normative output (R31, R80). -/
def Decoded.operandTexts (conv : RegNames) (d : Decoded) : List String := d.ops.map (Operand.text conv)

/-- The text form of a successful decode: the mnemonic, one space, the operand texts joined by a comma (R80). -/
def Decoded.text (conv : RegNames) (d : Decoded) : String :=
  d.mnem.name ++ " " ++ String.intercalate "," (d.operandTexts conv)

/-- The name of an error kind (R210, R212). -/
def ErrKind.name : ErrKind → String
  | .unrecognizedOpcode => "UnrecognizedOpcode"
  | .unrecognizedFunct3 => "UnrecognizedFunct3"
  | .unrecognizedFunct7 => "UnrecognizedFunct7"
  | .unknownRegister => "UnknownRegister"
  | .malformedInput => "MalformedInput"

/-- The name of the offending field (R210, R212). -/
def Field.name : Field → String
  | .opcode => "opcode"
  | .funct3 => "funct3"
  | .funct7 => "funct7"
  | .funct12 => "funct12"
  | .rd => "rd"
  | .rs1 => "rs1"
  | .rs2 => "rs2"

/-- The canonical text of an error (R212). -/
def DecodeError.text (e : DecodeError) : String :=
  "ERROR " ++ e.kind.name ++ "(" ++ e.field.name ++ "=" ++ dec e.value.toNat ++ ")"

/-- The canonical text of a decode result (R80, R212). -/
def Result.text (conv : RegNames) : Result → String
  | .decoded d => d.text conv
  | .error e => e.text

end Sys2Proof
end

