-- ==== Sys2Proof/Machine/Operands.lean ====
section
/-! DEFINITION. Operands: the template of each format (spec/30_encoding.md R75), the register check (R76, R77), and the
whole decode of a word (R77). -/

namespace Sys2Proof

/-- The operand template of each format, filled from a word's fields. It depends on the format only, never on the
mnemonic (R75). -/
def template (w : Word) : Format → List Operand
  | .r => [.reg (fieldRd w), .reg (fieldRs1 w), .reg (fieldRs2 w)]
  | .i => [.reg (fieldRd w), .reg (fieldRs1 w), .imm ((immI w).setWidth 20)]
  | .iLoad => [.reg (fieldRd w), .mem (immI w) (fieldRs1 w)]
  | .s => [.reg (fieldRs2 w), .mem (immS w) (fieldRs1 w)]
  | .sb => [.reg (fieldRs1 w), .reg (fieldRs2 w), .imm ((immSB w).setWidth 20)]
  | .uPCRelative => [.reg (fieldRd w), .imm (immU w)]
  | .uAbsolute => [.reg (fieldRd w), .imm (immU w)]
  | .uj => [.reg (fieldRd w), .imm (immUJ w)]
  | .csr => [.reg (fieldRd w), .csr (field31_20 w), .reg (fieldRs1 w)]

/-- The fields that a format's register operands come from, in template order (R75, R76). -/
def Format.regFields : Format → List Field
  | .r => [.rd, .rs1, .rs2]
  | .i => [.rd, .rs1]
  | .iLoad => [.rd, .rs1]
  | .s => [.rs2, .rs1]
  | .sb => [.rs1, .rs2]
  | .uPCRelative => [.rd]
  | .uAbsolute => [.rd]
  | .uj => [.rd]
  | .csr => [.rd, .rs1]

/-- The register index an operand names, if it names one (R30). -/
def Operand.register : Operand → Option RegIdx
  | .reg i => some i
  | .imm _ => none
  | .mem _ i => some i
  | .csr _ => none

/-- The first register, in template order, that a table of names does not name (R76, R215). -/
def firstUnnamed (nameOf : RegIdx → Option String) : List (Field × RegIdx) → Option (Field × RegIdx)
  | [] => none
  | (f, i) :: rest =>
    match nameOf i with
    | none => some (f, i)
    | some _ => firstUnnamed nameOf rest

/-- `raise UnknownRegister(field of i, i)` (R77, R220). -/
def errRegister (f : Field) (i : RegIdx) : DecodeError := ⟨.unknownRegister, f, i.setWidth 12⟩

/-- The register check over a table of names: each register index of the operand list is looked up, in template order,
and the first without an entry is an `UnknownRegister` error (R76, R77). -/
def checkRegistersIn (nameOf : RegIdx → Option String) (d : Decoded) : Result :=
  match firstUnnamed nameOf (d.fmt.regFields.zip (d.ops.filterMap Operand.register)) with
  | some (f, i) => .error (errRegister f i)
  | none => .decoded d

/-- The end of every decode: the check over the Register Name table, before the Decoded Instruction is emitted (R76, R77).
With the complete table the error branch is dead, and it is kept as the spec asks (R220, D28; assumption log 9). -/
def checkRegisters (conv : RegNames) (d : Decoded) : Result := checkRegistersIn (regName conv) d

/-- The whole decode of a word as one function: the trie walk, the template of the format, the register check
(R63, R77). -/
def decodeWord (conv : RegNames) (w : Word) : Result :=
  match walkWord w with
  | .error e => .error e
  | .ok (m, fmt) => checkRegisters conv ⟨m, fmt, template w fmt⟩

/-- A batch: result `k` is the decode of word `k` (R50, R246). -/
def decodeBatch (conv : RegNames) (ws : List Word) : List Result := ws.map (decodeWord conv)

/-- The canonical text of the decode of a word (R80, R212). -/
def wordText (conv : RegNames) (w : Word) : String := (decodeWord conv w).text conv

end Sys2Proof
end

