-- ==== Sys2Proof/Machine/Ports.lean ====
section
/-! DEFINITION. The output ports of the block, under the spec's own names (spec/10_state.md R23, R26), and the values
that are driven on them. -/

namespace Sys2Proof

/-- The Field Extractor's output ports (R23). -/
structure ExtractorPorts where
  opcode_o : BitVec 7
  funct3_o : BitVec 3
  funct7_o : BitVec 7
  rd_o : BitVec 5
  rs1_o : BitVec 5
  rs2_o : BitVec 5
  w31_20_o : BitVec 12
  w31_25_o : BitVec 7
  w11_7_o : BitVec 5
  w31_o : BitVec 1
  w7_o : BitVec 1
  w30_25_o : BitVec 6
  w11_8_o : BitVec 4
  w31_12_o : BitVec 20
  w19_12_o : BitVec 8
  w20_o : BitVec 1
  w30_21_o : BitVec 10
  deriving DecidableEq, Repr

/-- The three ports of one operand: `opk_o[k]`, `opr_o[k]`, `opv_o[k]` (R26). -/
structure OperandPort where
  opk : BitVec 2
  opr : BitVec 5
  opv : BitVec 20
  deriving DecidableEq, Repr

/-- The Instruction Resolver's output ports (R26); `op0` to `op2` are the operand ports for k = 0, 1, 2. -/
structure ResolverPorts where
  ok_o : BitVec 1
  err_o : BitVec 3
  err_field_o : BitVec 3
  err_value_o : BitVec 12
  fmt_o : BitVec 4
  mnem_o : BitVec 6
  nops_o : BitVec 2
  op0 : OperandPort
  op1 : OperandPort
  op2 : OperandPort
  imm_o : BitVec 20
  immw_o : BitVec 5
  csr_o : BitVec 12
  deriving DecidableEq, Repr

/-- The Field Extractor: every slice of the word, for every word (R23, R56). -/
def extract (w : Word) : ExtractorPorts :=
  { opcode_o := fieldOpcode w
    funct3_o := fieldFunct3 w
    funct7_o := fieldFunct7 w
    rd_o := fieldRd w
    rs1_o := fieldRs1 w
    rs2_o := fieldRs2 w
    w31_20_o := field31_20 w
    w31_25_o := field31_25 w
    w11_7_o := field11_7 w
    w31_o := field31 w
    w7_o := field7 w
    w30_25_o := field30_25 w
    w11_8_o := field11_8 w
    w31_12_o := field31_12 w
    w19_12_o := field19_12 w
    w20_o := field20 w
    w30_21_o := field30_21 w }

/-- The ports of an operand slot that holds no operand: all zero (R26). -/
def noOperandPort : OperandPort := ⟨0#2, 0#5, 0#20⟩

/-- The ports of one operand: kind code, register index for `Reg` and `Mem`, zero-extended value for `Imm`, `Mem` and
`Csr`, otherwise 0 (R26, R30). -/
def Operand.port : Operand → OperandPort
  | .reg i => ⟨0#2, i, 0#20⟩
  | .imm v => ⟨1#2, 0#5, v⟩
  | .mem v i => ⟨2#2, i, v.setWidth 20⟩
  | .csr v => ⟨3#2, 0#5, v.setWidth 20⟩

/-- The ports of operand slot `k`; all zero where `k >= nops_o` (R26). -/
def operandPortAt (ops : List Operand) (k : Nat) : OperandPort :=
  match ops[k]? with
  | some op => op.port
  | none => noOperandPort

/-- The reconstructed immediate an operand list carries, zero-extended; 0 where it carries none (R26, R72). -/
def immediateOf : List Operand → BitVec 20
  | [] => 0#20
  | .imm v :: _ => v
  | .mem v _ :: _ => v.setWidth 20
  | .reg _ :: rest => immediateOf rest
  | .csr _ :: rest => immediateOf rest

/-- The CSR number an operand list carries; 0 where it carries none (R26). -/
def csrNumberOf : List Operand → BitVec 12
  | [] => 0#12
  | .csr v :: _ => v
  | .reg _ :: rest => csrNumberOf rest
  | .imm _ :: rest => csrNumberOf rest
  | .mem _ _ :: rest => csrNumberOf rest

/-- The width of a format's immediate before zero-extension (R26, R72). -/
def Format.immWidth : Format → BitVec 5
  | .r => 0#5
  | .i => 12#5
  | .iLoad => 12#5
  | .s => 12#5
  | .sb => 12#5
  | .uPCRelative => 20#5
  | .uAbsolute => 20#5
  | .uj => 20#5
  | .csr => 0#5

/-- What the resolver drives for a Decoded Instruction (R26, R31). -/
def decodedPorts (d : Decoded) : ResolverPorts :=
  { ok_o := 1#1
    err_o := 0#3
    err_field_o := 0#3
    err_value_o := 0#12
    fmt_o := d.fmt.code
    mnem_o := d.mnem.id
    nops_o := BitVec.ofNat 2 d.ops.length
    op0 := operandPortAt d.ops 0
    op1 := operandPortAt d.ops 1
    op2 := operandPortAt d.ops 2
    imm_o := immediateOf d.ops
    immw_o := d.fmt.immWidth
    csr_o := csrNumberOf d.ops }

/-- What the resolver drives for a decode error: the error's codes and value, and no partial result (R210, R211). -/
def errorPorts (e : DecodeError) : ResolverPorts :=
  { ok_o := 0#1
    err_o := e.kind.code
    err_field_o := e.field.code
    err_value_o := e.value
    fmt_o := fmtNone
    mnem_o := 0#6
    nops_o := 0#2
    op0 := noOperandPort
    op1 := noOperandPort
    op2 := noOperandPort
    imm_o := 0#20
    immw_o := 0#5
    csr_o := 0#12 }

/-- What the resolver drives for a decode result. -/
def resolverPorts : Result → ResolverPorts
  | .decoded d => decodedPorts d
  | .error e => errorPorts e

end Sys2Proof
end

