-- ==== Sys2Proof/Machine/State.lean ====
section
/-! DEFINITION. The state of the machine, its reset, and the reasons a step can stop. The block itself holds no mutable
state (spec/10_state.md R20, R33): what stands here is what is on its ports, the build parameter, and the collaborator's
two lists, the words it still presents and the results it has collected (spec/20_memory.md R50). -/

namespace Sys2Proof.Machine

/-- Everything the spec gives the machine: its input port, its output ports, its build parameter, and the batch a
collaborator runs through it. The three constant tables (R21) are definitions, not fields: no input writes them. -/
structure State where
  /-- `REG_NAMES`, fixed when the block is built (R13, R243). -/
  regNames : RegNames
  /-- The input port `instr_i[31:0]` (R22). -/
  instr_i : Word
  /-- The Field Extractor's output ports (R23). -/
  ext : ExtractorPorts
  /-- The Instruction Resolver's output ports (R26). -/
  res : ResolverPorts
  /-- The collaborator's: the words it presents next, in order (R50; spec/95 section 3). Assumption log 3. -/
  upcoming : List Word
  /-- The collaborator's: the results collected so far, in input order (R50; spec/95 section 3). Assumption log 3. -/
  results : List Result
  deriving DecidableEq, Repr

/-- Why a step would stop with a fault. There is no such reason: every input word gives exactly one outcome, a Decoded
Instruction or a decode error on the ports (R221), and a decode error is a result, not a trap (R225). Safe: nothing the
hardware does is cut short. -/
inductive Fault where
  deriving DecidableEq, Repr

/-- Why a step would be refused. -/
inductive Refusal where
  /-- Raised only by an arm of `exec` whose instruction has no meaning yet; no arm is such. Safe. -/
  | notModelled (mnemonic : String)
  deriving DecidableEq, Repr

/-- The block as built with the default `REG_NAMES` (spec/95 section 3) and before its first word. The block has no reset
input and no state to reset (R37, R240, R241): the outputs are the function of `instr_i` that R23 and R26 give, and
`instr_i` holds a free value (X9). No word is queued and no result collected. -/
def State.reset : State :=
  { regNames := Config.defaultRegNames
    instr_i := Config.undrivenWord
    ext := extract Config.undrivenWord
    res := resolverPorts (decodeWord Config.defaultRegNames Config.undrivenWord)
    upcoming := []
    results := [] }

end Sys2Proof.Machine
end

