-- ==== Sys2Proof/Machine/Ops.lean ====
section
/-! DEFINITION. The shared operations of every decode: presenting the next word, emitting a Decoded Instruction, raising
a decode error. Raising an error is the machine's only exceptional outcome: it saves no state, changes no mode and
transfers no control (spec/60_exceptions.md R225), and there is no return from it (R226). -/

namespace Sys2Proof.Machine

/-- The word the next decode reads: the next one the collaborator presents, or, when it presents no further one, the
word that stands on `instr_i` (assumption log 4). -/
def State.nextWord (s : State) : Word :=
  match s.upcoming with
  | [] => s.instr_i
  | w :: _ => w

/-- The collaborator drives `instr_i` with the next word, and the Field Extractor drives its ports from it: for every
word, whether or not its decode succeeds (R23). -/
def present (s : State) : State :=
  { s with instr_i := s.nextWord, ext := extract s.nextWord, upcoming := s.upcoming.tail }

/-- The outcome of a decode: the resolver drives its ports, and the collaborator takes the result (R26, R50). -/
def deliver (r : Result) (s : State) : Host.Outcome State Fault Refusal :=
  .next { s with res := resolverPorts r, results := s.results ++ [r] }

/-- `emit(mnem, fmt, ops)` (R16, R77): the register check, then the Decoded Instruction. -/
def emit (m : Mnemonic) (fmt : Format) (ops : List Operand) (s : State) : Host.Outcome State Fault Refusal :=
  deliver (checkRegisters s.regNames ⟨m, fmt, ops⟩) s

/-- `raise E(field, value)` (R16, R211): the decode ends with the error, and no partial result is driven. -/
def raiseError (e : DecodeError) (s : State) : Host.Outcome State Fault Refusal :=
  deliver (.error e) s

/-- The word is placed where the next decode reads it: in front of the words still to be presented. -/
def queueWord (w : Word) (s : State) : State := { s with upcoming := w :: s.upcoming }

/-- The canonical texts of the results collected so far, in input order, with the names of the built `REG_NAMES`
(R50, R80, R212). -/
def State.report (s : State) : List String := s.results.map (Result.text s.regNames)

end Sys2Proof.Machine
end

