-- ==== Sys2Proof/Machine/Branch.lean ====
section
/-! DEFINITION. The meanings of the SB-format instructions (spec/44_sb_branch.md R160 to R167):
operands `Reg(rs1)`, `Reg(rs2)`, `Imm(imm)`. The block executes nothing: an
instruction's operation is its decode (spec/00_scope.md R9). -/

namespace Sys2Proof.Machine

/-- `beq` (R161). -/
def execBeq (rs1 rs2 : RegIdx) (imm : Imm12) (s : State) : Host.Outcome State Fault Refusal :=
  emit .beq .sb [.reg rs1, .reg rs2, .imm (imm.setWidth 20)] s

/-- `bne` (R162). -/
def execBne (rs1 rs2 : RegIdx) (imm : Imm12) (s : State) : Host.Outcome State Fault Refusal :=
  emit .bne .sb [.reg rs1, .reg rs2, .imm (imm.setWidth 20)] s

/-- `blt` (R163). -/
def execBlt (rs1 rs2 : RegIdx) (imm : Imm12) (s : State) : Host.Outcome State Fault Refusal :=
  emit .blt .sb [.reg rs1, .reg rs2, .imm (imm.setWidth 20)] s

/-- `bge` (R164). -/
def execBge (rs1 rs2 : RegIdx) (imm : Imm12) (s : State) : Host.Outcome State Fault Refusal :=
  emit .bge .sb [.reg rs1, .reg rs2, .imm (imm.setWidth 20)] s

/-- `bltu` (R165). -/
def execBltu (rs1 rs2 : RegIdx) (imm : Imm12) (s : State) : Host.Outcome State Fault Refusal :=
  emit .bltu .sb [.reg rs1, .reg rs2, .imm (imm.setWidth 20)] s

/-- `bgeu` (R166). -/
def execBgeu (rs1 rs2 : RegIdx) (imm : Imm12) (s : State) : Host.Outcome State Fault Refusal :=
  emit .bgeu .sb [.reg rs1, .reg rs2, .imm (imm.setWidth 20)] s

end Sys2Proof.Machine
end

