-- ==== Sys2Proof/Machine/IType.lean ====
section
/-! DEFINITION. The meanings of the I-format instructions (spec/41_i_type.md R120 to R130):
operands `Reg(rd)`, `Reg(rs1)`, `Imm(imm)`. The block executes nothing: an
instruction's operation is its decode (spec/00_scope.md R9). -/

namespace Sys2Proof.Machine

/-- `addi` (R121). -/
def execAddi (rd rs1 : RegIdx) (imm : Imm12) (s : State) : Host.Outcome State Fault Refusal :=
  emit .addi .i [.reg rd, .reg rs1, .imm (imm.setWidth 20)] s

/-- `slti` (R122). -/
def execSlti (rd rs1 : RegIdx) (imm : Imm12) (s : State) : Host.Outcome State Fault Refusal :=
  emit .slti .i [.reg rd, .reg rs1, .imm (imm.setWidth 20)] s

/-- `sltiu` (R123). -/
def execSltiu (rd rs1 : RegIdx) (imm : Imm12) (s : State) : Host.Outcome State Fault Refusal :=
  emit .sltiu .i [.reg rd, .reg rs1, .imm (imm.setWidth 20)] s

/-- `xori` (R124). -/
def execXori (rd rs1 : RegIdx) (imm : Imm12) (s : State) : Host.Outcome State Fault Refusal :=
  emit .xori .i [.reg rd, .reg rs1, .imm (imm.setWidth 20)] s

/-- `ori` (R125). -/
def execOri (rd rs1 : RegIdx) (imm : Imm12) (s : State) : Host.Outcome State Fault Refusal :=
  emit .ori .i [.reg rd, .reg rs1, .imm (imm.setWidth 20)] s

/-- `andi` (R126). -/
def execAndi (rd rs1 : RegIdx) (imm : Imm12) (s : State) : Host.Outcome State Fault Refusal :=
  emit .andi .i [.reg rd, .reg rs1, .imm (imm.setWidth 20)] s

/-- `slli` (R127). The immediate keeps `w[31:25]`, which is `0000000`: it equals the shift amount. -/
def execSlli (rd rs1 : RegIdx) (imm : Imm12) (s : State) : Host.Outcome State Fault Refusal :=
  emit .slli .i [.reg rd, .reg rs1, .imm (imm.setWidth 20)] s

/-- `srli` (R128). The immediate keeps `w[31:25]`, which is `0000000`: it equals the shift amount. -/
def execSrli (rd rs1 : RegIdx) (imm : Imm12) (s : State) : Host.Outcome State Fault Refusal :=
  emit .srli .i [.reg rd, .reg rs1, .imm (imm.setWidth 20)] s

/-- `srai` (R129). The immediate keeps `w[31:25]`, which is `0100000`: it is 1024 plus the shift amount. -/
def execSrai (rd rs1 : RegIdx) (imm : Imm12) (s : State) : Host.Outcome State Fault Refusal :=
  emit .srai .i [.reg rd, .reg rs1, .imm (imm.setWidth 20)] s

/-- `jalr` (R130). Operands in the order of format I; no target is formed. -/
def execJalr (rd rs1 : RegIdx) (imm : Imm12) (s : State) : Host.Outcome State Fault Refusal :=
  emit .jalr .i [.reg rd, .reg rs1, .imm (imm.setWidth 20)] s

end Sys2Proof.Machine
end

