-- ==== Sys2Proof/Machine/Jump.lean ====
section
/-! DEFINITION. The meanings of the UJ-format instruction (spec/46_uj_jump.md R180, R181):
operands `Reg(rd)`, `Imm(imm)`. The block executes nothing: an
instruction's operation is its decode (spec/00_scope.md R9). -/

namespace Sys2Proof.Machine

/-- `jal` (R181). -/
def execJal (rd : RegIdx) (imm : Imm20) (s : State) : Host.Outcome State Fault Refusal :=
  emit .jal .uj [.reg rd, .imm imm] s

end Sys2Proof.Machine
end

