-- ==== Sys2Proof/Machine/Load.lean ====
section
/-! DEFINITION. The meanings of the I_Load-format instructions (spec/42_i_load.md R140 to R145):
operands `Reg(rd)`, `Mem(imm, rs1)`. The block executes nothing: an
instruction's operation is its decode (spec/00_scope.md R9). -/

namespace Sys2Proof.Machine

/-- `lb` (R141). -/
def execLb (rd : RegIdx) (imm : Imm12) (rs1 : RegIdx) (s : State) : Host.Outcome State Fault Refusal :=
  emit .lb .iLoad [.reg rd, .mem imm rs1] s

/-- `lh` (R142). -/
def execLh (rd : RegIdx) (imm : Imm12) (rs1 : RegIdx) (s : State) : Host.Outcome State Fault Refusal :=
  emit .lh .iLoad [.reg rd, .mem imm rs1] s

/-- `lw` (R143). -/
def execLw (rd : RegIdx) (imm : Imm12) (rs1 : RegIdx) (s : State) : Host.Outcome State Fault Refusal :=
  emit .lw .iLoad [.reg rd, .mem imm rs1] s

/-- `lbu` (R144). -/
def execLbu (rd : RegIdx) (imm : Imm12) (rs1 : RegIdx) (s : State) : Host.Outcome State Fault Refusal :=
  emit .lbu .iLoad [.reg rd, .mem imm rs1] s

/-- `lhu` (R145). -/
def execLhu (rd : RegIdx) (imm : Imm12) (rs1 : RegIdx) (s : State) : Host.Outcome State Fault Refusal :=
  emit .lhu .iLoad [.reg rd, .mem imm rs1] s

end Sys2Proof.Machine
end

