-- ==== Sys2Proof/Machine/RType.lean ====
section
/-! DEFINITION. The meanings of the R-format instructions (spec/40_r_type.md R100 to R110):
operands `Reg(rd)`, `Reg(rs1)`, `Reg(rs2)`. The block executes nothing: an
instruction's operation is its decode (spec/00_scope.md R9). -/

namespace Sys2Proof.Machine

/-- `add` (R101). -/
def execAdd (rd rs1 rs2 : RegIdx) (s : State) : Host.Outcome State Fault Refusal :=
  emit .add .r [.reg rd, .reg rs1, .reg rs2] s

/-- `sub` (R102). -/
def execSub (rd rs1 rs2 : RegIdx) (s : State) : Host.Outcome State Fault Refusal :=
  emit .sub .r [.reg rd, .reg rs1, .reg rs2] s

/-- `sll` (R103). -/
def execSll (rd rs1 rs2 : RegIdx) (s : State) : Host.Outcome State Fault Refusal :=
  emit .sll .r [.reg rd, .reg rs1, .reg rs2] s

/-- `slt` (R104). -/
def execSlt (rd rs1 rs2 : RegIdx) (s : State) : Host.Outcome State Fault Refusal :=
  emit .slt .r [.reg rd, .reg rs1, .reg rs2] s

/-- `sltu` (R105). -/
def execSltu (rd rs1 rs2 : RegIdx) (s : State) : Host.Outcome State Fault Refusal :=
  emit .sltu .r [.reg rd, .reg rs1, .reg rs2] s

/-- `xor` (R106). -/
def execXor (rd rs1 rs2 : RegIdx) (s : State) : Host.Outcome State Fault Refusal :=
  emit .xor .r [.reg rd, .reg rs1, .reg rs2] s

/-- `srl` (R107). -/
def execSrl (rd rs1 rs2 : RegIdx) (s : State) : Host.Outcome State Fault Refusal :=
  emit .srl .r [.reg rd, .reg rs1, .reg rs2] s

/-- `sra` (R108). -/
def execSra (rd rs1 rs2 : RegIdx) (s : State) : Host.Outcome State Fault Refusal :=
  emit .sra .r [.reg rd, .reg rs1, .reg rs2] s

/-- `or` (R109). -/
def execOr (rd rs1 rs2 : RegIdx) (s : State) : Host.Outcome State Fault Refusal :=
  emit .or .r [.reg rd, .reg rs1, .reg rs2] s

/-- `and` (R110). -/
def execAnd (rd rs1 rs2 : RegIdx) (s : State) : Host.Outcome State Fault Refusal :=
  emit .and .r [.reg rd, .reg rs1, .reg rs2] s

end Sys2Proof.Machine
end

