-- ==== Sys2Proof/Machine/Store.lean ====
section
/-! DEFINITION. The meanings of the S-format instructions (spec/43_s_type.md R150 to R154):
operands `Reg(rs2)`, `Mem(imm, rs1)`. The block executes nothing: an
instruction's operation is its decode (spec/00_scope.md R9). -/

namespace Sys2Proof.Machine

/-- `sb` (R151). -/
def execSb (rs2 : RegIdx) (imm : Imm12) (rs1 : RegIdx) (s : State) : Host.Outcome State Fault Refusal :=
  emit .sb .s [.reg rs2, .mem imm rs1] s

/-- `sh` (R152). -/
def execSh (rs2 : RegIdx) (imm : Imm12) (rs1 : RegIdx) (s : State) : Host.Outcome State Fault Refusal :=
  emit .sh .s [.reg rs2, .mem imm rs1] s

/-- `sw` (R153). -/
def execSw (rs2 : RegIdx) (imm : Imm12) (rs1 : RegIdx) (s : State) : Host.Outcome State Fault Refusal :=
  emit .sw .s [.reg rs2, .mem imm rs1] s

end Sys2Proof.Machine
end

