-- ==== Sys2Proof/Machine/System.lean ====
section
/-! DEFINITION. The meanings of the CSR-format instructions (spec/47_csr_system.md R190 to R199):
operands `Reg(rd)`, `Csr(csr)`, `Reg(rs1)`. The block executes nothing: an
instruction's operation is its decode (spec/00_scope.md R9). -/

namespace Sys2Proof.Machine

/-- `csrrw` (R191). -/
def execCsrrw (rd : RegIdx) (csr : CsrNum) (rs1 : RegIdx) (s : State) : Host.Outcome State Fault Refusal :=
  emit .csrrw .csr [.reg rd, .csr csr, .reg rs1] s

/-- `csrrs` (R192). -/
def execCsrrs (rd : RegIdx) (csr : CsrNum) (rs1 : RegIdx) (s : State) : Host.Outcome State Fault Refusal :=
  emit .csrrs .csr [.reg rd, .csr csr, .reg rs1] s

/-- `csrrc` (R193). -/
def execCsrrc (rd : RegIdx) (csr : CsrNum) (rs1 : RegIdx) (s : State) : Host.Outcome State Fault Refusal :=
  emit .csrrc .csr [.reg rd, .csr csr, .reg rs1] s

/-- `csrrwi` (R194). The field `w[19:15]` takes the template's register form (R199). -/
def execCsrrwi (rd : RegIdx) (csr : CsrNum) (rs1 : RegIdx) (s : State) : Host.Outcome State Fault Refusal :=
  emit .csrrwi .csr [.reg rd, .csr csr, .reg rs1] s

/-- `csrrsi` (R195). The field `w[19:15]` takes the template's register form (R199). -/
def execCsrrsi (rd : RegIdx) (csr : CsrNum) (rs1 : RegIdx) (s : State) : Host.Outcome State Fault Refusal :=
  emit .csrrsi .csr [.reg rd, .csr csr, .reg rs1] s

/-- `csrrci` (R196). The field `w[19:15]` takes the template's register form (R199). -/
def execCsrrci (rd : RegIdx) (csr : CsrNum) (rs1 : RegIdx) (s : State) : Host.Outcome State Fault Refusal :=
  emit .csrrci .csr [.reg rd, .csr csr, .reg rs1] s

/-- `ecall` (R197). The CSR template whole; nothing is called and nothing traps (R230). -/
def execEcall (rd : RegIdx) (csr : CsrNum) (rs1 : RegIdx) (s : State) : Host.Outcome State Fault Refusal :=
  emit .ecall .csr [.reg rd, .csr csr, .reg rs1] s

/-- `ebreak` (R198). The CSR template whole; no breakpoint is raised (R230). -/
def execEbreak (rd : RegIdx) (csr : CsrNum) (rs1 : RegIdx) (s : State) : Host.Outcome State Fault Refusal :=
  emit .ebreak .csr [.reg rd, .csr csr, .reg rs1] s

end Sys2Proof.Machine
end

