-- ==== Sys2Proof/Machine/Upper.lean ====
section
/-! DEFINITION. The meanings of the U-format instructions (spec/45_u_type.md R170 to R172):
operands `Reg(rd)`, `Imm(imm)`. The block executes nothing: an
instruction's operation is its decode (spec/00_scope.md R9). -/

namespace Sys2Proof.Machine

/-- `auipc` (R171). The format is a label only: nothing is added to any pc (R29). -/
def execAuipc (rd : RegIdx) (imm : Imm20) (s : State) : Host.Outcome State Fault Refusal :=
  emit .auipc .uPCRelative [.reg rd, .imm imm] s

/-- `lui` (R172). -/
def execLui (rd : RegIdx) (imm : Imm20) (s : State) : Host.Outcome State Fault Refusal :=
  emit .lui .uAbsolute [.reg rd, .imm imm] s

end Sys2Proof.Machine
end

