-- ==== Sys2Proof/Machine/Step.lean ====
section
/-! DEFINITION. One step: one decode, from the next input word to the outputs, indivisible and without duration
(spec/20_memory.md R46, spec/70_reset_and_hazards.md R245). -/

namespace Sys2Proof.Machine

/-- The next word is presented and its fields extracted; it is resolved, and either the instruction's own meaning drives
the outputs or the decode error is raised (R2, R63, R77). -/
def step (s : State) : Host.Outcome State Fault Refusal :=
  match decode (present s).instr_i with
  | .ok i => exec i (present s)
  | .error e => raiseError e (present s)

/-- `s` with the given word placed where the next step reads its input. -/
def State.withFetchWord (s : State) (nbits w : Nat) : State := queueWord (wordOfTable nbits w) s

end Sys2Proof.Machine
end

