-- ==== Sys2Proof/Machine/Input.lean ====
section
/-! DEFINITION. How an instruction word reaches the 32-bit input port (spec/20_memory.md R40, R41, R45). -/

namespace Sys2Proof

/-- A binary digit string read left to right, most significant bit first: `w[31-j] = s[j]` (R40). Absent for a string
of any other length: such a word cannot be presented at the 32-bit port (R45). -/
def wordOfBits (s : List Bool) : Option Word :=
  if s.length = 32 then some ((BitVec.ofBoolListBE s).setWidth 32) else none

/-- The bit a binary digit character stands for. -/
def binaryDigit (c : Char) : Option Bool :=
  if c = '0' then some false else if c = '1' then some true else none

/-- "an exact 32-character binary digit string" as the word it denotes (R22, R40, R45). -/
def wordOfBinaryString (s : String) : Option Word :=
  match s.toList.mapM binaryDigit with
  | none => none
  | some bits => wordOfBits bits

/-- The word a collaborator assembles from four bytes, the one at the lowest address in `w[7:0]` (R41: little-endian
parcels, from general knowledge and outside the block). -/
def wordOfParcel (b0 b1 b2 b3 : BitVec 8) : Word := b3 ++ b2 ++ b1 ++ b0

end Sys2Proof
end

