-- ==== Sys2Proof/Safety.lean ====
section
/-! DEFINITION. The terms the claims use: a safe run, ports that are driven by the current input word, and the values the
rules give, written out from the spec's tables and place values without the model's own functions. -/

namespace Sys2Proof

open Sys2Proof.Machine

/-- The ports show the decode of what stands on `instr_i`: every output is a function of the current input word (R20). -/
abbrev Machine.State.Driven (s : State) : Prop :=
  s.ext = extract s.instr_i ∧ s.res = resolverPorts (decodeWord s.regNames s.instr_i)

/-- A safe run of `k` steps answers a state: it stops at no fault and no refusal (R221). -/
def SafeFor (k : Nat) (s : State) : Prop := ∃ t, core.run k s = .next t

namespace Spec

/-- The unsigned field `w[hi:lo]`, by place values (R15, R16). -/
def slice (w : Word) (hi lo : Nat) : Nat := w.toNat / 2 ^ lo % 2 ^ (hi - lo + 1)

/-- Presented on the input, the word `w` gives the resolver outputs `p`, in whatever state the machine is. -/
def Gives (w : Word) (p : ResolverPorts) : Prop :=
  ∀ s : State, s.nextWord = w → ∃ t : State, step s = .next t ∧ t.instr_i = w ∧ t.res = p

/-! ## Output values, as R26 and R30 give them -/

/-- `Reg(i)` on an operand's ports (R26, R30). -/
def reg (i : RegIdx) : OperandPort := ⟨0, i, 0⟩
/-- `Imm(v)` on an operand's ports (R26, R30). -/
def imm (v : BitVec 20) : OperandPort := ⟨1, 0, v⟩
/-- `Mem(v, i)` on an operand's ports (R26, R30). -/
def mem (v : BitVec 20) (i : RegIdx) : OperandPort := ⟨2, i, v⟩
/-- `Csr(v)` on an operand's ports (R26, R30). -/
def csr (v : BitVec 20) : OperandPort := ⟨3, 0, v⟩
/-- An operand slot that is not used (R26). -/
def unused : OperandPort := ⟨0, 0, 0⟩

/-- The outputs of a successful decode: the error ports are 0 (R26). -/
def okPorts (fmt : BitVec 4) (id : BitVec 6) (nops : BitVec 2) (op0 op1 op2 : OperandPort) (immediate : BitVec 20)
    (width : BitVec 5) (csrNum : BitVec 12) : ResolverPorts :=
  { ok_o := 1, err_o := 0, err_field_o := 0, err_value_o := 0, fmt_o := fmt, mnem_o := id, nops_o := nops,
    op0 := op0, op1 := op1, op2 := op2, imm_o := immediate, immw_o := width, csr_o := csrNum }

/-- The outputs of a decode error: kind, field and value, everything else as R211 says. -/
def errPorts (kind field : BitVec 3) (value : Nat) : ResolverPorts :=
  { ok_o := 0, err_o := kind, err_field_o := field, err_value_o := BitVec.ofNat 12 value, fmt_o := 15, mnem_o := 0,
    nops_o := 0, op0 := unused, op1 := unused, op2 := unused, imm_o := 0, immw_o := 0, csr_o := 0 }

/-- Format R (R75, R100). -/
def rPorts (id : BitVec 6) (rd rs1 rs2 : RegIdx) : ResolverPorts :=
  okPorts 0 id 3 (reg rd) (reg rs1) (reg rs2) 0 0 0
/-- Format I (R75, R120). -/
def iPorts (id : BitVec 6) (rd rs1 : RegIdx) (v : BitVec 20) : ResolverPorts :=
  okPorts 1 id 3 (reg rd) (reg rs1) (imm v) v 12 0
/-- Format I_Load (R75, R140). -/
def loadPorts (id : BitVec 6) (rd : RegIdx) (v : BitVec 20) (rs1 : RegIdx) : ResolverPorts :=
  okPorts 2 id 2 (reg rd) (mem v rs1) unused v 12 0
/-- Format S (R75, R150). -/
def storePorts (id : BitVec 6) (rs2 : RegIdx) (v : BitVec 20) (rs1 : RegIdx) : ResolverPorts :=
  okPorts 3 id 2 (reg rs2) (mem v rs1) unused v 12 0
/-- Format SB (R75, R160). -/
def branchPorts (id : BitVec 6) (rs1 rs2 : RegIdx) (v : BitVec 20) : ResolverPorts :=
  okPorts 4 id 3 (reg rs1) (reg rs2) (imm v) v 12 0
/-- Formats U_PCRelative (5) and U_Absolute (6) (R75, R170). -/
def upperPorts (fmt : BitVec 4) (id : BitVec 6) (rd : RegIdx) (v : BitVec 20) : ResolverPorts :=
  okPorts fmt id 2 (reg rd) (imm v) unused v 20 0
/-- Format UJ (R75, R180). -/
def jumpPorts (id : BitVec 6) (rd : RegIdx) (v : BitVec 20) : ResolverPorts :=
  okPorts 7 id 2 (reg rd) (imm v) unused v 20 0
/-- Format CSR (R75, R190). -/
def csrPorts (id : BitVec 6) (rd : RegIdx) (num : BitVec 12) (rs1 : RegIdx) : ResolverPorts :=
  okPorts 8 id 3 (reg rd) (csr (num.setWidth 20)) (reg rs1) 0 0 num

/-- The state after an instruction's own effect: its outputs, and its result taken by the collaborator (assumption log
3); nothing else changes (R47). -/
def emitted (s : State) (p : ResolverPorts) (m : Mnemonic) (fmt : Format) (ops : List Operand) : State :=
  { regNames := s.regNames, instr_i := s.instr_i, ext := s.ext, res := p, upcoming := s.upcoming,
    results := s.results ++ [.decoded ⟨m, fmt, ops⟩] }

/-! ## Fields and immediates of a word, by place values -/

/-- rd, `w[11:7]` -/
def rd (w : Word) : RegIdx := BitVec.ofNat 5 (slice w 11 7)
/-- rs1, `w[19:15]` -/
def rs1 (w : Word) : RegIdx := BitVec.ofNat 5 (slice w 19 15)
/-- rs2, `w[24:20]` -/
def rs2 (w : Word) : RegIdx := BitVec.ofNat 5 (slice w 24 20)
/-- The I immediate, `w[31:20]` (R72). -/
def immI (w : Word) : Nat := slice w 31 20
/-- The S immediate: `w[31:25]` gives bits 11..5, `w[11:7]` bits 4..0 (R150). -/
def immS (w : Word) : Nat := slice w 31 25 * 2 ^ 5 + slice w 11 7
/-- The SB immediate: `w[31]` gives bit 11, `w[7]` bit 10, `w[30:25]` bits 9..4, `w[11:8]` bits 3..0 (R160). -/
def immSB (w : Word) : Nat := slice w 31 31 * 2 ^ 11 + slice w 7 7 * 2 ^ 10 + slice w 30 25 * 2 ^ 4 + slice w 11 8
/-- The U immediate, `w[31:12]` (R170). -/
def immU (w : Word) : Nat := slice w 31 12
/-- The UJ immediate: `w[31]` gives bit 19, `w[19:12]` bits 18..11, `w[20]` bit 10, `w[30:21]` bits 9..0 (R180). -/
def immUJ (w : Word) : Nat := slice w 31 31 * 2 ^ 19 + slice w 19 12 * 2 ^ 11 + slice w 20 20 * 2 ^ 10 + slice w 30 21

/-! ## Which words are errors (R71, R215 to R218) -/

/-- The ten opcodes of R60. -/
def opcodes : List Nat :=
  [0b0110011, 0b0010011, 0b1100111, 0b0000011, 0b0100011, 0b1100011, 0b0010111, 0b0110111, 0b1101111, 0b1110011]

/-- The (opcode, funct3) pairs without an entry (R217). -/
abbrev BadFunct3 (op f3 : Nat) : Prop :=
  (op = 0b0000011 ∧ f3 ∈ [0b011, 0b110, 0b111]) ∨ (op = 0b0100011 ∧ f3 ∈ [0b011, 0b100, 0b101, 0b110, 0b111]) ∨
    (op = 0b1100011 ∧ f3 ∈ [0b010, 0b011]) ∨ (op = 0b1100111 ∧ f3 ≠ 0b000) ∨ (op = 0b1110011 ∧ f3 = 0b100)

/-- The (opcode, funct3, funct7) triples of OP and OP-IMM without an entry (R71, R218). -/
abbrev BadFunct7 (op f3 f7 : Nat) : Prop :=
  (op = 0b0110011 ∧ f3 ∈ [0b000, 0b101] ∧ f7 ∉ [0b0000000, 0b0100000]) ∨
    (op = 0b0110011 ∧ f3 ∉ [0b000, 0b101] ∧ f7 ≠ 0b0000000) ∨ (op = 0b0010011 ∧ f3 = 0b001 ∧ f7 ≠ 0b0000000) ∨
    (op = 0b0010011 ∧ f3 = 0b101 ∧ f7 ∉ [0b0000000, 0b0100000])

/-- SYSTEM funct3 `000` with funct12 other than 0 and 1 (R71, R218). -/
abbrev BadFunct12 (op f3 f12 : Nat) : Prop := op = 0b1110011 ∧ f3 = 0b000 ∧ f12 ∉ [0, 1]

/-- The error outputs of a word, where it has an error: the first check that fails (R215). -/
def errorOf (w : Word) : Option ResolverPorts :=
  if slice w 6 0 ∉ opcodes then some (errPorts 1 1 (slice w 6 0))
  else if BadFunct3 (slice w 6 0) (slice w 14 12) then some (errPorts 2 2 (slice w 14 12))
  else if BadFunct7 (slice w 6 0) (slice w 14 12) (slice w 31 25) then some (errPorts 3 3 (slice w 31 25))
  else if BadFunct12 (slice w 6 0) (slice w 14 12) (slice w 31 20) then some (errPorts 3 4 (slice w 31 20))
  else none

/-! ## What a format gives (R26, R60, R72, R75) -/

/-- The code of the format of an opcode, where the Format table has the opcode (R34, R60). -/
def formatOf (op : Nat) : Option (BitVec 4) :=
  if op = 0b0110011 then some 0 else if op = 0b0010011 ∨ op = 0b1100111 then some 1
  else if op = 0b0000011 then some 2 else if op = 0b0100011 then some 3 else if op = 0b1100011 then some 4
  else if op = 0b0010111 then some 5 else if op = 0b0110111 then some 6 else if op = 0b1101111 then some 7
  else if op = 0b1110011 then some 8 else none

/-- The immediate of a format code, as a value; 0 for R (0) and CSR (8) (R26, R72). -/
def immediateByFormat (fmt : Nat) (w : Word) : Nat :=
  if fmt = 1 ∨ fmt = 2 then immI w else if fmt = 3 then immS w else if fmt = 4 then immSB w
  else if fmt = 5 ∨ fmt = 6 then immU w else if fmt = 7 then immUJ w else 0

/-- The width of a format's immediate: 12 (I, I_Load, S, SB), 20 (U_PCRelative, U_Absolute, UJ), 0 (R, CSR) (R26). -/
def immWidthByFormat (fmt : Nat) : Nat :=
  if fmt ∈ [1, 2, 3, 4] then 12 else if fmt ∈ [5, 6, 7] then 20 else 0

/-- The operand count and the operand slots of a format code, 0 to 8 (R34, R75). -/
def templateByFormat (fmt : Nat) (w : Word) : BitVec 2 × OperandPort × OperandPort × OperandPort :=
  if fmt = 0 then (3, reg (rd w), reg (rs1 w), reg (rs2 w))
  else if fmt = 1 then (3, reg (rd w), reg (rs1 w), imm (BitVec.ofNat 20 (immI w)))
  else if fmt = 2 then (2, reg (rd w), mem (BitVec.ofNat 20 (immI w)) (rs1 w), unused)
  else if fmt = 3 then (2, reg (rs2 w), mem (BitVec.ofNat 20 (immS w)) (rs1 w), unused)
  else if fmt = 4 then (3, reg (rs1 w), reg (rs2 w), imm (BitVec.ofNat 20 (immSB w)))
  else if fmt = 5 ∨ fmt = 6 then (2, reg (rd w), imm (BitVec.ofNat 20 (immU w)), unused)
  else if fmt = 7 then (2, reg (rd w), imm (BitVec.ofNat 20 (immUJ w)), unused)
  else (3, reg (rd w), csr (BitVec.ofNat 20 (slice w 31 20)), reg (rs1 w))

/-- The registers of a format's template, in template order, each with the field it comes from (R75, R76). -/
def templateRegisters (w : Word) : Format → List (Field × RegIdx)
  | .r => [(.rd, rd w), (.rs1, rs1 w), (.rs2, rs2 w)]
  | .i | .iLoad | .csr => [(.rd, rd w), (.rs1, rs1 w)]
  | .s => [(.rs2, rs2 w), (.rs1, rs1 w)]
  | .sb => [(.rs1, rs1 w), (.rs2, rs2 w)]
  | .uPCRelative | .uAbsolute | .uj => [(.rd, rd w)]

/-- The seven opcodes whose entry in the Mnemonic Table is keyed by funct3 (R61). -/
def funct3Opcodes : List Nat :=
  [0b0110011, 0b0010011, 0b1100111, 0b0000011, 0b0100011, 0b1100011, 0b1110011]

/-- Two words agree on the keys that the walk of their opcode consults: the opcode; funct3, where the opcode's entry is
keyed by it; funct7 for OP and the OP-IMM shifts; funct12 for SYSTEM funct3 `000` (R57, R61, R78). -/
abbrev SameKeys (w w' : Word) : Prop :=
  slice w 6 0 = slice w' 6 0 ∧
    (slice w 6 0 ∈ funct3Opcodes →
      slice w 14 12 = slice w' 14 12 ∧
        (slice w 6 0 = 0b0110011 → slice w 31 25 = slice w' 31 25) ∧
        (slice w 6 0 = 0b0010011 → slice w 14 12 ∈ [0b001, 0b101] → slice w 31 25 = slice w' 31 25) ∧
        (slice w 6 0 = 0b1110011 → slice w 14 12 = 0b000 → slice w 31 20 = slice w' 31 20))

/-! ## The form of an instruction's rule -/

/-- What the rule of one instruction says: the words its match and mask select are those with its key values; each of
them gives the rule's outputs, so in particular it raises no `UnknownRegister`; and the rule's example words have the
texts it gives (under `REG_NAMES = NUMERIC`). -/
def InstrRule (matchWord maskWord : Word) (keys : Word → Prop) (ports : Word → ResolverPorts)
    (texts : List (Word × String)) : Prop :=
  (∀ w, w &&& maskWord = matchWord ↔ keys w) ∧ (∀ w, keys w → Gives w (ports w)) ∧
    ∀ p ∈ texts, wordText .numeric p.1 = p.2

/-- The keys of a word: opcode alone. -/
abbrev key1 (op : Nat) (w : Word) : Prop := slice w 6 0 = op
/-- The keys of a word: opcode and funct3. -/
abbrev key2 (op f3 : Nat) (w : Word) : Prop := slice w 6 0 = op ∧ slice w 14 12 = f3
/-- The keys of a word: opcode, funct3 and funct7. -/
abbrev key3 (op f3 f7 : Nat) (w : Word) : Prop := slice w 6 0 = op ∧ slice w 14 12 = f3 ∧ slice w 31 25 = f7
/-- The keys of a word: opcode, funct3 and funct12. -/
abbrev key12 (op f3 f12 : Nat) (w : Word) : Prop := slice w 6 0 = op ∧ slice w 14 12 = f3 ∧ slice w 31 20 = f12

end Spec

end Sys2Proof
end

