-- ==== Sys2Proof/Certificates/Slice0/Obligations.lean ====
section
/-! DEFINITION. The statements for the provers. Each names in its docstring the rules of spec/ it formalises, or, where it
rests on a convention of the model, the assumption log's entry. -/

open Sys2Proof Sys2Proof.Machine

/-- At least one word of each of the nine formats, written field by field, decodes to its instruction with its
operands and immediate; a word of an opcode outside the Format table decodes to UnrecognizedOpcode.
(30_encoding.md section 1, 30_encoding.md section 2, 30_encoding.md section 3, 30_encoding.md section 4,
30_encoding.md section 5, 30_encoding.md section 6) -/
def Obligations.SampleWordsDecode : Prop :=
  decode 0b0100000_00011_00010_000_00001_0110011#32 = .ok (.sub 1 2 3) ∧
  decode 0b100000000000_01011_100_01010_0010011#32 = .ok (.xori 10 11 2048) ∧
  decode 0b000000001000_00010_010_01010_0000011#32 = .ok (.lw 10 8 2) ∧
  decode 0b0000001_01010_00010_000_00000_0100011#32 = .ok (.sb 10 32 2) ∧
  decode 0b1_000000_00000_00101_001_0000_0_1100011#32 = .ok (.bne 5 0 2048) ∧
  decode 0b00000000000000000001_00101_0010111#32 = .ok (.auipc 5 1) ∧
  decode 0b00000000001111101000_00110_0110111#32 = .ok (.lui 6 1000) ∧
  decode 0b0_0000000000_1_00000000_00001_1101111#32 = .ok (.jal 1 1024) ∧
  decode 0b001100000000_00101_101_01010_1110011#32 = .ok (.csrrwi 10 768 5) ∧
  decode 0b000000000001_00001_000_00000_1110011#32 = .ok (.ebreak 0 1 1) ∧
  decode 0b0000000_00000_00000_000_00000_1111111#32 = .error ⟨.unrecognizedOpcode, .opcode, 127⟩

/-- For every well-formed instruction of all 45 constructors, with every operand value its encoding admits, decode
(encode i) is i. (30_encoding.md section 1, 30_encoding.md section 5) -/
def Obligations.EveryWellFormedInstrRoundTrips : Prop :=
  ∀ i : Instr, i.wellFormed = true → decode (encode i) = .ok i

/-- Whenever the decoder reads an instruction from a word, the instruction is well-formed and encode gives exactly
that word: no bit of the word is lost. (30_encoding.md section 1, 30_encoding.md section 5) -/
def Obligations.DecodedInstrReencodesToItsWord : Prop :=
  ∀ (w : Word) (i : Instr), decode w = .ok i → i.wellFormed = true ∧ encode i = w

/-- For every word and mnemonic, the decoder reads an instruction of that mnemonic if and only if the word masked
with the row's mask is the row's match. (30_encoding.md section 3, opcode_table.json, 95_test_vectors.md section
1 (L1-5)) -/
def Obligations.TrieWalkAgreesWithOpcodeRows : Prop :=
  ∀ (w : Word) (m : Mnemonic),
  (∃ i, decode w = .ok i ∧ i.mnemonic = m) ↔ w &&& m.maskWord = m.matchWord

/-- For every word: no two rows match it; if a row matches, the decoder reads an instruction of that row's mnemonic;
if none matches, the decoder answers a decode error. (The spec marks "no word matches two rows" as its own
inference.) (30_encoding.md section 4) -/
def Obligations.EachWordReachesAtMostOneRow : Prop :=
  ∀ w : Word,
  (∀ m m' : Mnemonic, w &&& m.maskWord = m.matchWord → w &&& m'.maskWord = m'.matchWord → m = m') ∧
  (∀ m : Mnemonic, w &&& m.maskWord = m.matchWord → ∃ i, decode w = .ok i ∧ i.mnemonic = m) ∧
  ((∀ m : Mnemonic, w &&& m.maskWord ≠ m.matchWord) → ∃ e, decode w = .error e)

/-- The Format table has ten entries, those of R60; every step that succeeds drives the format of the input word's
opcode; an opcode outside the table is a decode error (UnrecognizedOpcode), never a default. (R59, R60) -/
def Obligations.FormatFollowsOpcodeAlone : Prop :=
  opcodeFormatTable.length = 10 ∧
  (∀ op : Opcode, (lookup opcodeFormatTable op).map Format.code = Spec.formatOf op.toNat) ∧
  ∀ s : State, ∃ t : State, step s = .next t ∧ t.instr_i = s.nextWord ∧
    (∀ c, Spec.formatOf (Spec.slice t.instr_i 6 0) = some c →
      (t.res.ok_o = 1 → t.res.fmt_o = c) ∧ t.res.err_o ≠ 1) ∧
    (Spec.formatOf (Spec.slice t.instr_i 6 0) = none → t.res.ok_o = 0 ∧ t.res.err_o = 1)

/-- Both tables list the same ten opcodes, and every opcode found in the Format table is found in the Mnemonic
Table. (R69) -/
def Obligations.TablesShareOpcodeKeys : Prop :=
  opcodeFormatTable.map (fun e => e.1.toNat) = Spec.opcodes ∧ mnemonicTable.map (fun e => e.1.toNat) = Spec.opcodes ∧
  ∀ op : Opcode, (lookup opcodeFormatTable op).isSome = true → (lookup mnemonicTable op).isSome = true

/-- For both values of REG_NAMES, all 32 indices have a name in the table and two indices with the same name are
equal. (R25) -/
def Obligations.RegisterNamesAreABijection : Prop :=
  ∀ conv : RegNames,
  (∀ i : RegIdx, ∃ n, regName conv i = some n) ∧ ∀ i j : RegIdx, regName conv i = regName conv j → i = j

/-- NUMERIC, the default, names index i as x followed by its decimal numeral; ABI names the 32 indices as the table
of R24 lists them, index 8 s0, and no index is named fp under either. (R24) -/
def Obligations.RegisterNameTableEntries : Prop :=
  Config.defaultRegNames = .numeric ∧
  (∀ i : RegIdx, regName .numeric i = some ("x" ++ dec i.toNat)) ∧
  (List.range 32).map (fun k => regName .abi (BitVec.ofNat 5 k)) =
    [ some "zero", some "ra", some "sp", some "gp", some "tp", some "t0", some "t1", some "t2",
      some "s0", some "s1", some "a0", some "a1", some "a2", some "a3", some "a4", some "a5",
      some "a6", some "a7", some "s2", some "s3", some "s4", some "s5", some "s6", some "s7",
      some "s8", some "s9", some "s10", some "s11", some "t3", some "t4", some "t5", some "t6" ] ∧
  ∀ (conv : RegNames) (i : RegIdx), regName conv i ≠ some "fp"

/-- The nine format codes are 0 to 8, the 45 mnemonic ids are 1 to 45 in order with their lower-case names; after
every step fmt_o is at most 8 or is 15 (NONE), mnem_o is at most 45, both are NONE on an error, and err_o is at
most 4. (R34, R62) -/
def Obligations.CodesAreTheTablesAndNoOthersAreDriven : Prop :=
  ([.r, .i, .iLoad, .s, .sb, .uPCRelative, .uAbsolute, .uj, .csr] : List Format).map (fun f => f.code.toNat) = List.range 9 ∧
  allMnemonics.map (fun m => m.id.toNat) = List.range' 1 45 ∧ (∀ m : Mnemonic, m ∈ allMnemonics) ∧
  allMnemonics.map Mnemonic.name =
    [ "add", "sub", "sll", "slt", "sltu", "xor", "srl", "sra", "or",
      "and", "addi", "slti", "sltiu", "xori", "ori", "andi", "slli", "srli",
      "srai", "jalr", "lb", "lh", "lw", "lbu", "lhu", "sb", "sh",
      "sw", "beq", "bne", "blt", "bge", "bltu", "bgeu", "auipc", "lui",
      "jal", "csrrw", "csrrs", "csrrc", "csrrwi", "csrrsi", "csrrci", "ecall", "ebreak" ] ∧
  ∀ s : State, ∃ t : State, step s = .next t ∧
    (t.res.fmt_o.toNat ≤ 8 ∨ t.res.fmt_o = 15) ∧ t.res.mnem_o.toNat ≤ 45 ∧ t.res.err_o.toNat ≤ 4 ∧
    (t.res.ok_o = 0 → t.res.fmt_o = 15 ∧ t.res.mnem_o = 0)

/-- For every state, the step answers a state whose 17 extractor ports hold the unsigned fields of the word on
instr_i at the bit positions R23 lists, whether or not the decode succeeded. (R23, R56) -/
def Obligations.ExtractorDrivesEverySlice : Prop :=
  ∀ s : State, ∃ t : State, step s = .next t ∧ t.instr_i = s.nextWord ∧
  t.ext.opcode_o.toNat = Spec.slice t.instr_i 6 0 ∧
  t.ext.funct3_o.toNat = Spec.slice t.instr_i 14 12 ∧
  t.ext.funct7_o.toNat = Spec.slice t.instr_i 31 25 ∧
  t.ext.rd_o.toNat = Spec.slice t.instr_i 11 7 ∧
  t.ext.rs1_o.toNat = Spec.slice t.instr_i 19 15 ∧
  t.ext.rs2_o.toNat = Spec.slice t.instr_i 24 20 ∧
  t.ext.w31_20_o.toNat = Spec.slice t.instr_i 31 20 ∧
  t.ext.w31_25_o.toNat = Spec.slice t.instr_i 31 25 ∧
  t.ext.w11_7_o.toNat = Spec.slice t.instr_i 11 7 ∧
  t.ext.w31_o.toNat = Spec.slice t.instr_i 31 31 ∧
  t.ext.w7_o.toNat = Spec.slice t.instr_i 7 7 ∧
  t.ext.w30_25_o.toNat = Spec.slice t.instr_i 30 25 ∧
  t.ext.w11_8_o.toNat = Spec.slice t.instr_i 11 8 ∧
  t.ext.w31_12_o.toNat = Spec.slice t.instr_i 31 12 ∧
  t.ext.w19_12_o.toNat = Spec.slice t.instr_i 19 12 ∧
  t.ext.w20_o.toNat = Spec.slice t.instr_i 20 20 ∧
  t.ext.w30_21_o.toNat = Spec.slice t.instr_i 30 21

/-- After every step: on success the error ports are 0, fmt_o is the code of the format of the opcode, mnem_o the id
of the instruction the word decodes to, nops_o and the operand ports those of its template (a register port 0
for Imm and Csr, a value port 0 for Reg, a slot beyond nops_o 0), imm_o and immw_o those of the format (0 for R
and CSR), csr_o w[31:20] exactly for format CSR; on an error the error ports are the kind, field and value of
the first failing check, all of the former are 0 and fmt_o is 15. (R26) -/
def Obligations.ResolverPortsFollowTheirTable : Prop :=
  ∀ s : State, ∃ t : State, step s = .next t ∧ t.instr_i = s.nextWord ∧
    (t.res.ok_o = 1 →
      t.res.err_o = 0 ∧ t.res.err_field_o = 0 ∧ t.res.err_value_o = 0 ∧
      Spec.formatOf (Spec.slice t.instr_i 6 0) = some t.res.fmt_o ∧
      (∃ i, decode t.instr_i = .ok i ∧ t.res.mnem_o = i.mnemonic.id) ∧
      (t.res.nops_o, t.res.op0, t.res.op1, t.res.op2) = Spec.templateByFormat t.res.fmt_o.toNat t.instr_i ∧
      (t.res.nops_o = 2 ∨ t.res.nops_o = 3) ∧ (t.res.nops_o = 2 → t.res.op2 = Spec.unused) ∧
      (∀ p ∈ [t.res.op0, t.res.op1, t.res.op2],
        (p.opk = 0 → p.opv = 0) ∧ (p.opk = 1 → p.opr = 0) ∧ (p.opk = 3 → p.opr = 0)) ∧
      t.res.imm_o.toNat = Spec.immediateByFormat t.res.fmt_o.toNat t.instr_i ∧
      t.res.immw_o.toNat = Spec.immWidthByFormat t.res.fmt_o.toNat ∧
      t.res.csr_o.toNat = if t.res.fmt_o = 8 then Spec.slice t.instr_i 31 20 else 0) ∧
    (t.res.ok_o = 0 →
      Spec.errorOf t.instr_i = some t.res ∧ t.res.fmt_o = 15 ∧ t.res.mnem_o = 0 ∧ t.res.nops_o = 0 ∧
      t.res.op0 = Spec.unused ∧ t.res.op1 = Spec.unused ∧ t.res.op2 = Spec.unused ∧
      t.res.imm_o = 0 ∧ t.res.immw_o = 0 ∧ t.res.csr_o = 0)

/-- After every successful step the operand count and the three operand slots are those of the format's template,
filled from the fields of the word on instr_i. (R75) -/
def Obligations.OperandsFollowFormatTemplate : Prop :=
  ∀ s : State, ∃ t : State, step s = .next t ∧ t.instr_i = s.nextWord ∧
    (t.res.ok_o = 1 → t.res.fmt_o.toNat ≤ 8 ∧
      (t.res.nops_o, t.res.op0, t.res.op1, t.res.op2) = Spec.templateByFormat t.res.fmt_o.toNat t.instr_i)

/-- After every successful step imm_o is the format's place-value sum of word bits and immw_o its width; a 12-bit
immediate is below 2^12 and a 20-bit one below 2^20; with w[31] = 1 it is at least 2048 or at least 524288.
(R72, R73) -/
def Obligations.ImmediatesAreUnsignedConcatenations : Prop :=
  ∀ s : State, ∃ t : State, step s = .next t ∧ t.instr_i = s.nextWord ∧
    (t.res.ok_o = 1 →
      t.res.imm_o.toNat = Spec.immediateByFormat t.res.fmt_o.toNat t.instr_i ∧
      t.res.immw_o.toNat = Spec.immWidthByFormat t.res.fmt_o.toNat ∧
      (t.res.immw_o = 12 → t.res.imm_o.toNat < 2 ^ 12) ∧ (t.res.immw_o = 20 → t.res.imm_o.toNat < 2 ^ 20) ∧
      (Spec.slice t.instr_i 31 31 = 1 →
        (t.res.immw_o = 12 → 2048 ≤ t.res.imm_o.toNat) ∧ (t.res.immw_o = 20 → 524288 ≤ t.res.imm_o.toNat)))

/-- For every state the step answers a next state; if the input word fails the opcode, funct3, funct7 or funct12
lookup (the exact sets of R71), the outputs are that first error's kind, field and value; otherwise the decode
succeeds. (The spec marks the order of the checks and "produces exactly one outcome" as its own inferences.)
(60_exceptions.md section 1, 30_encoding.md section 4) -/
def Obligations.EveryWordHasOneOutcome : Prop :=
  ∀ s : State, ∃ t : State, step s = .next t ∧ t.instr_i = s.nextWord ∧
    (∀ p, Spec.errorOf t.instr_i = some p → t.res = p) ∧
    (Spec.errorOf t.instr_i = none → t.res.ok_o = 1 ∧ t.res.err_o = 0)

/-- 118 of the 128 opcodes are not in R60. After every step: err_o is 1 exactly when the opcode is one of these; 2
exactly for the listed (opcode, funct3) pairs; 3 with field funct7 exactly for the listed (opcode, funct3,
funct7) triples; 3 with field funct12 exactly for SYSTEM funct3 000 with funct12 other than 0 and 1; and the
field and value ports name that field and hold its value. (R64, R216, R217, R218) -/
def Obligations.ErrorsAreRaisedExactlyForTheListedKeys : Prop :=
  ((List.range 128).filter (fun op => decide (op ∉ Spec.opcodes))).length = 118 ∧
  ∀ s : State, ∃ t : State, step s = .next t ∧ t.instr_i = s.nextWord ∧
    (t.res.err_o = 1 ↔ Spec.slice t.instr_i 6 0 ∉ Spec.opcodes) ∧
    (t.res.err_o = 2 ↔ Spec.BadFunct3 (Spec.slice t.instr_i 6 0) (Spec.slice t.instr_i 14 12)) ∧
    (t.res.err_o = 3 ∧ t.res.err_field_o = 3 ↔
      Spec.BadFunct7 (Spec.slice t.instr_i 6 0) (Spec.slice t.instr_i 14 12) (Spec.slice t.instr_i 31 25)) ∧
    (t.res.err_o = 3 ∧ t.res.err_field_o = 4 ↔
      Spec.BadFunct12 (Spec.slice t.instr_i 6 0) (Spec.slice t.instr_i 14 12) (Spec.slice t.instr_i 31 20)) ∧
    (t.res.err_o = 1 → t.res.err_field_o = 1 ∧ t.res.err_value_o.toNat = Spec.slice t.instr_i 6 0) ∧
    (t.res.err_o = 2 → t.res.err_field_o = 2 ∧ t.res.err_value_o.toNat = Spec.slice t.instr_i 14 12) ∧
    (t.res.err_o = 3 → t.res.err_field_o = 3 → t.res.err_value_o.toNat = Spec.slice t.instr_i 31 25) ∧
    (t.res.err_o = 3 → t.res.err_field_o = 4 → t.res.err_value_o.toNat = Spec.slice t.instr_i 31 20)

/-- Every word of opcode 0110011 gives a format R decode with its three register operands and no immediate, or
UnrecognizedFunct7 naming funct7; every word of opcode 0010011 a format I decode with the 12-bit unsigned
immediate, or UnrecognizedFunct7 naming funct7. (The spec marks "UnrecognizedFunct3 cannot arise for this
opcode" as its own inference.) (40_r_type.md, 41_i_type.md) -/
def Obligations.OpAndOpImmNeverRaiseFunct3Error : Prop :=
  (∀ w, Spec.key1 0b0110011 w →
    (∃ id, Spec.Gives w (Spec.rPorts id (Spec.rd w) (Spec.rs1 w) (Spec.rs2 w))) ∨
      Spec.Gives w (Spec.errPorts 3 3 (Spec.slice w 31 25))) ∧
  ∀ w, Spec.key1 0b0010011 w →
    (∃ id, Spec.Gives w (Spec.iPorts id (Spec.rd w) (Spec.rs1 w) (BitVec.ofNat 20 (Spec.immI w)))) ∨
      Spec.Gives w (Spec.errPorts 3 3 (Spec.slice w 31 25))

/-- After every step whose ok_o is 0: fmt_o is 15, mnem_o and nops_o are 0, every operand, immediate and CSR output
is 0, and the extractor ports hold the slices of the input word. An error word, one per error kind, shows that
such steps exist. (R211) -/
def Obligations.NoPartialResultOnError : Prop :=
  (∀ s : State, ∃ t : State, step s = .next t ∧ t.instr_i = s.nextWord ∧
    (t.res.ok_o = 0 →
      t.res.fmt_o = 15 ∧ t.res.mnem_o = 0 ∧ t.res.nops_o = 0 ∧
      t.res.op0 = Spec.unused ∧ t.res.op1 = Spec.unused ∧ t.res.op2 = Spec.unused ∧
      t.res.imm_o = 0 ∧ t.res.immw_o = 0 ∧ t.res.csr_o = 0 ∧ t.ext = extract t.instr_i)) ∧
  ∀ w ∈ [0x0000007F#32, 0x00813503#32, 0x023100B3#32, 0x30200073#32], ∃ p, Spec.Gives w p ∧ p.ok_o = 0

/-- Under either REG_NAMES, the text of a word that fails the opcode, funct3, funct7 or funct12 lookup first is
ERROR, the kind, and in brackets the field and its decimal value; all five kinds and seven fields have the names
of R210. (R212) -/
def Obligations.ErrorTexts : Prop :=
  (∀ e : DecodeError, ∀ conv : RegNames, (Result.error e).text conv =
    "ERROR " ++ e.kind.name ++ "(" ++ e.field.name ++ "=" ++ dec e.value.toNat ++ ")") ∧
  ([.unrecognizedOpcode, .unrecognizedFunct3, .unrecognizedFunct7, .unknownRegister, .malformedInput] : List ErrKind).map
    ErrKind.name = ["UnrecognizedOpcode", "UnrecognizedFunct3", "UnrecognizedFunct7", "UnknownRegister", "MalformedInput"] ∧
  ([.opcode, .funct3, .funct7, .funct12, .rd, .rs1, .rs2] : List Field).map Field.name =
    ["opcode", "funct3", "funct7", "funct12", "rd", "rs1", "rs2"] ∧
  ∀ (conv : RegNames) (w : Word),
    (Spec.slice w 6 0 ∉ Spec.opcodes →
      wordText conv w = "ERROR UnrecognizedOpcode(opcode=" ++ dec (Spec.slice w 6 0) ++ ")") ∧
    (Spec.BadFunct3 (Spec.slice w 6 0) (Spec.slice w 14 12) →
      wordText conv w = "ERROR UnrecognizedFunct3(funct3=" ++ dec (Spec.slice w 14 12) ++ ")") ∧
    (Spec.BadFunct7 (Spec.slice w 6 0) (Spec.slice w 14 12) (Spec.slice w 31 25) →
      wordText conv w = "ERROR UnrecognizedFunct7(funct7=" ++ dec (Spec.slice w 31 25) ++ ")") ∧
    (Spec.BadFunct12 (Spec.slice w 6 0) (Spec.slice w 14 12) (Spec.slice w 31 20) →
      wordText conv w = "ERROR UnrecognizedFunct7(funct12=" ++ dec (Spec.slice w 31 20) ++ ")")

/-- Under either REG_NAMES every index has a table entry; every instruction, well-formed or not, on every state,
completes with ok_o = 1; no step drives err_o = 4 (UnknownRegister). (The spec marks "it never fires" as its own
inference; assumption log 9.) (60_exceptions.md section 1, 30_encoding.md section 6) -/
def Obligations.UnknownRegisterIsNeverRaised : Prop :=
  (∀ (conv : RegNames) (i : RegIdx), (regName conv i).isSome = true) ∧
  (∀ (i : Instr) (s : State), ∃ t : State, exec i s = .next t ∧ t.res.ok_o = 1 ∧ t.res.err_o = 0) ∧
  ∀ s : State, ∃ t : State, step s = .next t ∧ t.res.err_o ≠ 4

/-- For every table of names, complete or not, every format, mnemonic and word: where the table names each register
of the template, the check passes the Decoded Instruction; where an index of the template is the first it does
not name, the check raises UnknownRegister with the field and value of that index. Every instruction on every
state ends with the answer of this check over the Register Name table of the built REG_NAMES. (That table is
complete, so the machine never shows the error: assumption log 9.) (30_encoding.md section 6, 60_exceptions.md
section 1) -/
def Obligations.RegisterCheckRaisesForTheFirstUnnamedIndex : Prop :=
  (∀ (nameOf : RegIdx → Option String) (m : Mnemonic) (fmt : Format) (w : Word),
    ((∀ p ∈ Spec.templateRegisters w fmt, nameOf p.2 ≠ none) →
      checkRegistersIn nameOf ⟨m, fmt, template w fmt⟩ = .decoded ⟨m, fmt, template w fmt⟩) ∧
    ∀ (before : List (Field × RegIdx)) (f : Field) (i : RegIdx) (after : List (Field × RegIdx)),
      Spec.templateRegisters w fmt = before ++ (f, i) :: after →
      (∀ p ∈ before, nameOf p.2 ≠ none) → nameOf i = none →
      checkRegistersIn nameOf ⟨m, fmt, template w fmt⟩ = .error ⟨.unknownRegister, f, BitVec.ofNat 12 i.toNat⟩) ∧
  ∀ (i : Instr) (s : State), ∃ (fmt : Format) (ops : List Operand),
    exec i s = deliver (checkRegistersIn (regName s.regNames) ⟨i.mnemonic, fmt, ops⟩) s

/-- For any two states, whatever their outputs, collected results and REG_NAMES, if the next input word is the same
then after one step all extractor and resolver ports, the error ports among them, are the same. (R20, R213) -/
def Obligations.OutputsDependOnInputWordOnly : Prop :=
  ∀ s s' : State, s.nextWord = s'.nextWord →
  ∃ t t' : State, step s = .next t ∧ step s' = .next t' ∧ t.ext = t'.ext ∧ t.res = t'.res

/-- Two words with the same opcode and, where they are keys of that opcode's entry, the same funct3, funct7 or
funct12, both succeed with the same format and mnemonic or both raise the same error: rd, rs1, rs2, immediates
and CSR numbers are never checked. Reserved words decode. (The spec marks "Only trie keys are checked" as its
own inference and decision.) (30_encoding.md section 6) -/
def Obligations.DecodeOutcomeDependsOnTrieKeysOnly : Prop :=
  (∀ s s' : State,
    Spec.SameKeys s.nextWord s'.nextWord →
    ∃ t t' : State, step s = .next t ∧ step s' = .next t' ∧ t.res.ok_o = t'.res.ok_o ∧ t.res.err_o = t'.res.err_o ∧
      t.res.err_field_o = t'.res.err_field_o ∧ t.res.err_value_o = t'.res.err_value_o ∧
      t.res.fmt_o = t'.res.fmt_o ∧ t.res.mnem_o = t'.res.mnem_o) ∧
  wordText .numeric 0x000002F3#32 = "ecall x5,0,x0" ∧ wordText .numeric 0x00108073#32 = "ebreak x0,1,x1" ∧
  wordText .numeric 0xFFF0A173#32 = "csrrs x2,4095,x1" ∧ wordText .numeric 0xFFF0B173#32 = "csrrc x2,4095,x1"

/-- From every state, a run of any number of steps answers a state and REG_NAMES in it is what it was. (That the
parameter is a field of State is the model's choice, assumption log 1; that every run completes rests on
"produces exactly one outcome", which the spec marks as its own inference, and on a decode error being a next
state, log 6.) (70_reset_and_hazards.md section 2, 60_exceptions.md section 1) -/
def Obligations.RegNamesNeverChange : Prop :=
  ∀ (k : Nat) (s : State), ∃ t : State, core.run k s = .next t ∧ t.regNames = s.regNames

/-- For every state the step answers exactly this state: instr_i holds the next word, the extractor ports its
slices, the resolver ports the result of the trie walk, format template and register check written as one
function of the word; the collaborator takes that result (assumption log 3) and the word leaves its queue (log
4); REG_NAMES is kept. (30_encoding.md section 4, 30_encoding.md section 6, 20_memory.md section 2) -/
def Obligations.StepIsTheWholeDecode : Prop :=
  ∀ s : State, step s = .next
  { regNames := s.regNames, instr_i := s.nextWord, ext := extract s.nextWord,
    res := resolverPorts (decodeWord s.regNames s.nextWord), upcoming := s.upcoming.tail,
    results := s.results ++ [decodeWord s.regNames s.nextWord] }

/-- From every state, whatever stood on its ports, a step answers a state in which all outputs are the function of
instr_i that R23, R26 and R77 give. (10_state.md section 1, 70_reset_and_hazards.md section 1) -/
def Obligations.EveryStepLeavesPortsDriven : Prop :=
  ∀ s : State, ∃ t : State, step s = .next t ∧ t.Driven

/-- Before the first word the outputs are the function of instr_i, whatever it holds (a free value, assumption log
2); REG_NAMES has its default NUMERIC; no word is queued and no result collected (log 3).
(70_reset_and_hazards.md section 1, 92_eei_decisions.md D20) -/
def Obligations.ResetPortsAreDriven : Prop :=
  State.reset.Driven ∧ State.reset.regNames = .numeric ∧ State.reset.upcoming = [] ∧ State.reset.results = []

/-- If the next word decodes to an instruction, the step is exec of it on the state with that word on instr_i, its
fields on the extractor ports and the word taken from the queue (assumption log 4); if it decodes to an error,
the step drives the error outputs on that state and the collaborator takes the error (log 3). (30_encoding.md
section 4, 00_scope.md section 1) -/
def Obligations.StepRunsTheDecodedInstr : Prop :=
  ∀ s : State,
  (∀ i, decode s.nextWord = .ok i → step s = exec i
    { regNames := s.regNames, instr_i := s.nextWord, ext := extract s.nextWord, res := s.res,
      upcoming := s.upcoming.tail, results := s.results }) ∧
  (∀ e, decode s.nextWord = .error e → step s = .next
    { regNames := s.regNames, instr_i := s.nextWord, ext := extract s.nextWord, res := errorPorts e,
      upcoming := s.upcoming.tail, results := s.results ++ [.error e] })

/-- Placing a word given with its bit count makes it the next word, with every bit above the count zero; the words
queued before it follow it and no other field changes; and if it decodes to an instruction the next step runs
that instruction. Placing a word, and placing it in front of the queue, are the model's choice (assumption log
5); so are the queue (log 3) and dropping the bits above the count (log 14). (10_state.md section 2, 00_scope.md
section 5, 70_reset_and_hazards.md section 2) -/
def Obligations.PresentedWordIsRunNext : Prop :=
  ∀ (s : State) (nbits w : Nat),
  s.withFetchWord nbits w = { s with upcoming := BitVec.ofNat 32 (w % 2 ^ nbits) :: s.upcoming } ∧
  ∀ i, decodeTableWord nbits w = some i → step (s.withFetchWord nbits w) = exec i
    { s with instr_i := BitVec.ofNat 32 (w % 2 ^ nbits), ext := extract (BitVec.ofNat 32 (w % 2 ^ nbits)) }

/-- For every word, one step from reset with that word presented answers a state with the word on instr_i, the ports
driven by it, REG_NAMES NUMERIC and one result collected, the decode of that word. (How a word is presented from
reset and the collected list are the model's choice: assumption log 5 and 3.) (70_reset_and_hazards.md section
2) -/
def Obligations.FirstDecodeAfterResetIsCorrect : Prop :=
  ∀ w : Word, ∃ t : State, step (State.reset.withFetchWord 32 w.toNat) = .next t ∧ t.instr_i = w ∧ t.Driven ∧
  t.regNames = .numeric ∧ t.results = [decodeWord .numeric w]

/-- From every state, running as many steps as words are queued collects, after what was collected before, the
decode of each queued word in input order, and empties the queue. The queue and the collected list are the
model's form of the collaborator (assumption log 3). (20_memory.md section 4, 70_reset_and_hazards.md section 4,
95_test_vectors.md section 3) -/
def Obligations.BatchResultsFollowInputOrder : Prop :=
  ∀ (ws : List Word) (s : State), s.upcoming = ws →
  ∃ t : State, core.run ws.length s = .next t ∧ t.results = s.results ++ ws.map (decodeWord s.regNames) ∧ t.upcoming = []

/-- Two batches that differ in one word, run on machines with the same REG_NAMES that have collected nothing, give
the same result at every other place: an error on one word, or its absence, has no effect on any other (the
queue and the collected list are assumption log 3). (60_exceptions.md section 1, 20_memory.md section 4) -/
def Obligations.OneWordNeverAffectsAnothersResult : Prop :=
  ∀ (pre post : List Word) (w w' : Word) (s s' : State),
  s.upcoming = pre ++ w :: post → s'.upcoming = pre ++ w' :: post → s.regNames = s'.regNames →
  s.results = [] → s'.results = [] →
  ∃ t t' : State, core.run (pre.length + 1 + post.length) s = .next t ∧
    core.run (pre.length + 1 + post.length) s' = .next t' ∧
    t.results.length = pre.length + 1 + post.length ∧
    ∀ k, k ≠ pre.length → t.results[k]? = t'.results[k]?

/-- For every instruction on every state, exec answers a next state; REG_NAMES, instr_i, the extractor ports and the
queue are unchanged; the collaborator takes one result (assumption log 3); running the instruction again gives
the same outputs. (20_memory.md section 2, 10_state.md section 1) -/
def Obligations.EveryInstrTouchesOnlyItsOutputs : Prop :=
  ∀ (i : Instr) (s : State), ∃ t t' : State, exec i s = .next t ∧ exec i t = .next t' ∧
  t.regNames = s.regNames ∧ t.instr_i = s.instr_i ∧ t.ext = s.ext ∧ t.upcoming = s.upcoming ∧
  t.results.length = s.results.length + 1 ∧ t.results.take s.results.length = s.results ∧ t'.res = t.res

/-- Under either REG_NAMES: Reg(i) is text RegName(i), code 0; Imm(v) is dec(v), code 1; Mem(v, i) is dec(v)
followed by RegName(i) in brackets, code 2; Csr(v) is dec(v), code 3. (R30) -/
def Obligations.OperandTextsAndPortCodes : Prop :=
  ∀ (conv : RegNames) (i : RegIdx) (v : BitVec 20) (v' : BitVec 12) (n : String), regName conv i = some n →
  (Operand.reg i).text conv = n ∧ (Operand.reg i).port.opk = 0 ∧
  (Operand.imm v).text conv = dec v.toNat ∧ (Operand.imm v).port.opk = 1 ∧
  (Operand.mem v' i).text conv = dec v'.toNat ++ "(" ++ n ++ ")" ∧ (Operand.mem v' i).port.opk = 2 ∧
  (Operand.csr v').text conv = dec v'.toNat ∧ (Operand.csr v').port.opk = 3

/-- For two and for three operands, under either REG_NAMES, the text is the mnemonic's name, one space, and the
operand texts with a comma and no space between them. (R80) -/
def Obligations.DecodedTextIsMnemonicSpaceOperands : Prop :=
  ∀ (conv : RegNames) (m : Mnemonic) (fmt : Format) (a b c : Operand),
  (Result.decoded ⟨m, fmt, [a, b]⟩).text conv = m.name ++ " " ++ (a.text conv ++ "," ++ b.text conv) ∧
  (Result.decoded ⟨m, fmt, [a, b, c]⟩).text conv =
    m.name ++ " " ++ (a.text conv ++ "," ++ b.text conv ++ "," ++ c.text conv)

/-- Every list of 32 digits denotes a word whose bit 31-j is digit j and whose value has the digits' usual place
values; a list of any other length denotes none. (The spec marks "w[31-j] = s[j]" as its own inference; that
another length denotes none is the model's deduction from R22 and R45, assumption log 13.) (20_memory.md section
1, 20_memory.md section 2) -/
def Obligations.BinaryStringBitOrder : Prop :=
  (∀ s : List Bool, s.length = 32 → ∃ w : Word, wordOfBits s = some w ∧
    (∀ j, j < 32 → w.getLsbD (31 - j) = s.getD j false) ∧ w.toNat = s.foldl (fun a b => 2 * a + b.toNat) 0) ∧
  ∀ s : List Bool, s.length ≠ 32 → wordOfBits s = none

/-- For every state and all operands, exec of add, sub, sll, slt, sltu, xor, srl, sra, or, and answers exactly the
state in which the resolver ports are those of the instruction and everything else is unchanged, but that the
collaborator takes the Decoded Instruction (assumption log 3). (40_r_type.md) -/
def Obligations.RFormatInstrsEmit : Prop :=
  ∀ (s : State) (rd rs1 rs2 : RegIdx),
  exec (.add rd rs1 rs2) s = .next (Spec.emitted s (Spec.rPorts 1 rd rs1 rs2) .add .r [.reg rd, .reg rs1, .reg rs2]) ∧
  exec (.sub rd rs1 rs2) s = .next (Spec.emitted s (Spec.rPorts 2 rd rs1 rs2) .sub .r [.reg rd, .reg rs1, .reg rs2]) ∧
  exec (.sll rd rs1 rs2) s = .next (Spec.emitted s (Spec.rPorts 3 rd rs1 rs2) .sll .r [.reg rd, .reg rs1, .reg rs2]) ∧
  exec (.slt rd rs1 rs2) s = .next (Spec.emitted s (Spec.rPorts 4 rd rs1 rs2) .slt .r [.reg rd, .reg rs1, .reg rs2]) ∧
  exec (.sltu rd rs1 rs2) s = .next (Spec.emitted s (Spec.rPorts 5 rd rs1 rs2) .sltu .r [.reg rd, .reg rs1, .reg rs2]) ∧
  exec (.xor rd rs1 rs2) s = .next (Spec.emitted s (Spec.rPorts 6 rd rs1 rs2) .xor .r [.reg rd, .reg rs1, .reg rs2]) ∧
  exec (.srl rd rs1 rs2) s = .next (Spec.emitted s (Spec.rPorts 7 rd rs1 rs2) .srl .r [.reg rd, .reg rs1, .reg rs2]) ∧
  exec (.sra rd rs1 rs2) s = .next (Spec.emitted s (Spec.rPorts 8 rd rs1 rs2) .sra .r [.reg rd, .reg rs1, .reg rs2]) ∧
  exec (.or rd rs1 rs2) s = .next (Spec.emitted s (Spec.rPorts 9 rd rs1 rs2) .or .r [.reg rd, .reg rs1, .reg rs2]) ∧
  exec (.and rd rs1 rs2) s = .next (Spec.emitted s (Spec.rPorts 10 rd rs1 rs2) .and .r [.reg rd, .reg rs1, .reg rs2])

/-- For every state and all operands, exec of addi, slti, sltiu, xori, ori, andi, slli, srli, srai, jalr answers
exactly the state in which the resolver ports are those of the instruction and everything else is unchanged, but
that the collaborator takes the Decoded Instruction (assumption log 3). (41_i_type.md) -/
def Obligations.IFormatInstrsEmit : Prop :=
  ∀ (s : State) (rd rs1 : RegIdx) (imm : Imm12),
  exec (.addi rd rs1 imm) s = .next (Spec.emitted s (Spec.iPorts 11 rd rs1 (imm.setWidth 20)) .addi .i [.reg rd, .reg rs1, .imm (imm.setWidth 20)]) ∧
  exec (.slti rd rs1 imm) s = .next (Spec.emitted s (Spec.iPorts 12 rd rs1 (imm.setWidth 20)) .slti .i [.reg rd, .reg rs1, .imm (imm.setWidth 20)]) ∧
  exec (.sltiu rd rs1 imm) s = .next (Spec.emitted s (Spec.iPorts 13 rd rs1 (imm.setWidth 20)) .sltiu .i [.reg rd, .reg rs1, .imm (imm.setWidth 20)]) ∧
  exec (.xori rd rs1 imm) s = .next (Spec.emitted s (Spec.iPorts 14 rd rs1 (imm.setWidth 20)) .xori .i [.reg rd, .reg rs1, .imm (imm.setWidth 20)]) ∧
  exec (.ori rd rs1 imm) s = .next (Spec.emitted s (Spec.iPorts 15 rd rs1 (imm.setWidth 20)) .ori .i [.reg rd, .reg rs1, .imm (imm.setWidth 20)]) ∧
  exec (.andi rd rs1 imm) s = .next (Spec.emitted s (Spec.iPorts 16 rd rs1 (imm.setWidth 20)) .andi .i [.reg rd, .reg rs1, .imm (imm.setWidth 20)]) ∧
  exec (.slli rd rs1 imm) s = .next (Spec.emitted s (Spec.iPorts 17 rd rs1 (imm.setWidth 20)) .slli .i [.reg rd, .reg rs1, .imm (imm.setWidth 20)]) ∧
  exec (.srli rd rs1 imm) s = .next (Spec.emitted s (Spec.iPorts 18 rd rs1 (imm.setWidth 20)) .srli .i [.reg rd, .reg rs1, .imm (imm.setWidth 20)]) ∧
  exec (.srai rd rs1 imm) s = .next (Spec.emitted s (Spec.iPorts 19 rd rs1 (imm.setWidth 20)) .srai .i [.reg rd, .reg rs1, .imm (imm.setWidth 20)]) ∧
  exec (.jalr rd rs1 imm) s = .next (Spec.emitted s (Spec.iPorts 20 rd rs1 (imm.setWidth 20)) .jalr .i [.reg rd, .reg rs1, .imm (imm.setWidth 20)])

/-- For every state and all operands, exec of lb, lh, lw, lbu, lhu answers exactly the state in which the resolver
ports are those of the instruction and everything else is unchanged, but that the collaborator takes the Decoded
Instruction (assumption log 3). (42_i_load.md) -/
def Obligations.LoadInstrsEmit : Prop :=
  ∀ (s : State) (rd rs1 : RegIdx) (imm : Imm12),
  exec (.lb rd imm rs1) s = .next (Spec.emitted s (Spec.loadPorts 21 rd (imm.setWidth 20) rs1) .lb .iLoad [.reg rd, .mem imm rs1]) ∧
  exec (.lh rd imm rs1) s = .next (Spec.emitted s (Spec.loadPorts 22 rd (imm.setWidth 20) rs1) .lh .iLoad [.reg rd, .mem imm rs1]) ∧
  exec (.lw rd imm rs1) s = .next (Spec.emitted s (Spec.loadPorts 23 rd (imm.setWidth 20) rs1) .lw .iLoad [.reg rd, .mem imm rs1]) ∧
  exec (.lbu rd imm rs1) s = .next (Spec.emitted s (Spec.loadPorts 24 rd (imm.setWidth 20) rs1) .lbu .iLoad [.reg rd, .mem imm rs1]) ∧
  exec (.lhu rd imm rs1) s = .next (Spec.emitted s (Spec.loadPorts 25 rd (imm.setWidth 20) rs1) .lhu .iLoad [.reg rd, .mem imm rs1])

/-- For every state and all operands, exec of sb, sh, sw answers exactly the state in which the resolver ports are
those of the instruction and everything else is unchanged, but that the collaborator takes the Decoded
Instruction (assumption log 3). (43_s_type.md) -/
def Obligations.StoreInstrsEmit : Prop :=
  ∀ (s : State) (rs1 rs2 : RegIdx) (imm : Imm12),
  exec (.sb rs2 imm rs1) s = .next (Spec.emitted s (Spec.storePorts 26 rs2 (imm.setWidth 20) rs1) .sb .s [.reg rs2, .mem imm rs1]) ∧
  exec (.sh rs2 imm rs1) s = .next (Spec.emitted s (Spec.storePorts 27 rs2 (imm.setWidth 20) rs1) .sh .s [.reg rs2, .mem imm rs1]) ∧
  exec (.sw rs2 imm rs1) s = .next (Spec.emitted s (Spec.storePorts 28 rs2 (imm.setWidth 20) rs1) .sw .s [.reg rs2, .mem imm rs1])

/-- For every state and all operands, exec of beq, bne, blt, bge, bltu, bgeu answers exactly the state in which the
resolver ports are those of the instruction and everything else is unchanged, but that the collaborator takes
the Decoded Instruction (assumption log 3). (44_sb_branch.md) -/
def Obligations.BranchInstrsEmit : Prop :=
  ∀ (s : State) (rs1 rs2 : RegIdx) (imm : Imm12),
  exec (.beq rs1 rs2 imm) s = .next (Spec.emitted s (Spec.branchPorts 29 rs1 rs2 (imm.setWidth 20)) .beq .sb [.reg rs1, .reg rs2, .imm (imm.setWidth 20)]) ∧
  exec (.bne rs1 rs2 imm) s = .next (Spec.emitted s (Spec.branchPorts 30 rs1 rs2 (imm.setWidth 20)) .bne .sb [.reg rs1, .reg rs2, .imm (imm.setWidth 20)]) ∧
  exec (.blt rs1 rs2 imm) s = .next (Spec.emitted s (Spec.branchPorts 31 rs1 rs2 (imm.setWidth 20)) .blt .sb [.reg rs1, .reg rs2, .imm (imm.setWidth 20)]) ∧
  exec (.bge rs1 rs2 imm) s = .next (Spec.emitted s (Spec.branchPorts 32 rs1 rs2 (imm.setWidth 20)) .bge .sb [.reg rs1, .reg rs2, .imm (imm.setWidth 20)]) ∧
  exec (.bltu rs1 rs2 imm) s = .next (Spec.emitted s (Spec.branchPorts 33 rs1 rs2 (imm.setWidth 20)) .bltu .sb [.reg rs1, .reg rs2, .imm (imm.setWidth 20)]) ∧
  exec (.bgeu rs1 rs2 imm) s = .next (Spec.emitted s (Spec.branchPorts 34 rs1 rs2 (imm.setWidth 20)) .bgeu .sb [.reg rs1, .reg rs2, .imm (imm.setWidth 20)])

/-- For every state and all operands, exec of auipc, lui answers exactly the state in which the resolver ports are
those of the instruction and everything else is unchanged, but that the collaborator takes the Decoded
Instruction (assumption log 3). (45_u_type.md) -/
def Obligations.UpperImmediateInstrsEmit : Prop :=
  ∀ (s : State) (rd : RegIdx) (imm : Imm20),
  exec (.auipc rd imm) s = .next (Spec.emitted s (Spec.upperPorts 5 35 rd imm) .auipc .uPCRelative [.reg rd, .imm imm]) ∧
  exec (.lui rd imm) s = .next (Spec.emitted s (Spec.upperPorts 6 36 rd imm) .lui .uAbsolute [.reg rd, .imm imm])

/-- For every state and all operands, exec of jal answers exactly the state in which the resolver ports are those of
the instruction and everything else is unchanged, but that the collaborator takes the Decoded Instruction
(assumption log 3). (46_uj_jump.md) -/
def Obligations.JumpInstrEmits : Prop :=
  ∀ (s : State) (rd : RegIdx) (imm : Imm20),
  exec (.jal rd imm) s = .next (Spec.emitted s (Spec.jumpPorts 37 rd imm) .jal .uj [.reg rd, .imm imm])

/-- For every state and all operands, exec of csrrw, csrrs, csrrc, csrrwi, csrrsi, csrrci, ecall, ebreak answers
exactly the state in which the resolver ports are those of the instruction and everything else is unchanged, but
that the collaborator takes the Decoded Instruction (assumption log 3). (47_csr_system.md) -/
def Obligations.SystemInstrsEmit : Prop :=
  ∀ (s : State) (rd rs1 : RegIdx) (csr : CsrNum),
  exec (.csrrw rd csr rs1) s = .next (Spec.emitted s (Spec.csrPorts 38 rd csr rs1) .csrrw .csr [.reg rd, .csr csr, .reg rs1]) ∧
  exec (.csrrs rd csr rs1) s = .next (Spec.emitted s (Spec.csrPorts 39 rd csr rs1) .csrrs .csr [.reg rd, .csr csr, .reg rs1]) ∧
  exec (.csrrc rd csr rs1) s = .next (Spec.emitted s (Spec.csrPorts 40 rd csr rs1) .csrrc .csr [.reg rd, .csr csr, .reg rs1]) ∧
  exec (.csrrwi rd csr rs1) s = .next (Spec.emitted s (Spec.csrPorts 41 rd csr rs1) .csrrwi .csr [.reg rd, .csr csr, .reg rs1]) ∧
  exec (.csrrsi rd csr rs1) s = .next (Spec.emitted s (Spec.csrPorts 42 rd csr rs1) .csrrsi .csr [.reg rd, .csr csr, .reg rs1]) ∧
  exec (.csrrci rd csr rs1) s = .next (Spec.emitted s (Spec.csrPorts 43 rd csr rs1) .csrrci .csr [.reg rd, .csr csr, .reg rs1]) ∧
  exec (.ecall rd csr rs1) s = .next (Spec.emitted s (Spec.csrPorts 44 rd csr rs1) .ecall .csr [.reg rd, .csr csr, .reg rs1]) ∧
  exec (.ebreak rd csr rs1) s = .next (Spec.emitted s (Spec.csrPorts 45 rd csr rs1) .ebreak .csr [.reg rd, .csr csr, .reg rs1])

/-- An OP word whose funct3 node has no leaf for its funct7 raises UnrecognizedFunct7 naming funct7; each of the ten
instructions is selected by its match and mask and its keys, gives its own outputs, and has the texts of its
rule's examples. (R101, R102, R103, R104, R105, R106, R107, R108, R109, R110) -/
def Obligations.RFormatRules : Prop :=
  (∀ w, Spec.BadFunct7 0b0110011 (Spec.slice w 14 12) (Spec.slice w 31 25) → Spec.key1 0b0110011 w →
    Spec.Gives w (Spec.errPorts 3 3 (Spec.slice w 31 25))) ∧
  -- R101 add
  Spec.InstrRule 0x00000033#32 0xFE00707F#32 (Spec.key3 0b0110011 0b000 0b0000000)
      (fun w => Spec.rPorts 1 (Spec.rd w) (Spec.rs1 w) (Spec.rs2 w))
      [(0x00000033#32, "add x0,x0,x0"), (0x01FF8FB3#32, "add x31,x31,x31"), (0x003100B3#32, "add x1,x2,x3")] ∧
  -- R102 sub
  Spec.InstrRule 0x40000033#32 0xFE00707F#32 (Spec.key3 0b0110011 0b000 0b0100000)
      (fun w => Spec.rPorts 2 (Spec.rd w) (Spec.rs1 w) (Spec.rs2 w))
      [(0x407282B3#32, "sub x5,x5,x7"), (0x423100B3#32, "ERROR UnrecognizedFunct7(funct7=33)"),
        (0x403100B3#32, "sub x1,x2,x3")] ∧
  -- R103 sll
  Spec.InstrRule 0x00001033#32 0xFE00707F#32 (Spec.key3 0b0110011 0b001 0b0000000)
      (fun w => Spec.rPorts 3 (Spec.rd w) (Spec.rs1 w) (Spec.rs2 w))
      [(0x403110B3#32, "ERROR UnrecognizedFunct7(funct7=32)"), (0x003110B3#32, "sll x1,x2,x3")] ∧
  -- R104 slt
  Spec.InstrRule 0x00002033#32 0xFE00707F#32 (Spec.key3 0b0110011 0b010 0b0000000)
      (fun w => Spec.rPorts 4 (Spec.rd w) (Spec.rs1 w) (Spec.rs2 w))
      [(0x0020A033#32, "slt x0,x1,x2"), (0x003120B3#32, "slt x1,x2,x3")] ∧
  -- R105 sltu
  Spec.InstrRule 0x00003033#32 0xFE00707F#32 (Spec.key3 0b0110011 0b011 0b0000000)
      (fun w => Spec.rPorts 5 (Spec.rd w) (Spec.rs1 w) (Spec.rs2 w))
      [(0x023130B3#32, "ERROR UnrecognizedFunct7(funct7=1)"), (0x003130B3#32, "sltu x1,x2,x3")] ∧
  -- R106 xor
  Spec.InstrRule 0x00004033#32 0xFE00707F#32 (Spec.key3 0b0110011 0b100 0b0000000)
      (fun w => Spec.rPorts 6 (Spec.rd w) (Spec.rs1 w) (Spec.rs2 w))
      [(0x00004033#32, "xor x0,x0,x0"), (0x003140B3#32, "xor x1,x2,x3")] ∧
  -- R107 srl
  Spec.InstrRule 0x00005033#32 0xFE00707F#32 (Spec.key3 0b0110011 0b101 0b0000000)
      (fun w => Spec.rPorts 7 (Spec.rd w) (Spec.rs1 w) (Spec.rs2 w))
      [(0x023150B3#32, "ERROR UnrecognizedFunct7(funct7=1)"), (0x003150B3#32, "srl x1,x2,x3")] ∧
  -- R108 sra
  Spec.InstrRule 0x40005033#32 0xFE00707F#32 (Spec.key3 0b0110011 0b101 0b0100000)
      (fun w => Spec.rPorts 8 (Spec.rd w) (Spec.rs1 w) (Spec.rs2 w))
      [(0x4094D433#32, "sra x8,x9,x9"), (0x403150B3#32, "sra x1,x2,x3")] ∧
  -- R109 or
  Spec.InstrRule 0x00006033#32 0xFE00707F#32 (Spec.key3 0b0110011 0b110 0b0000000)
      (fun w => Spec.rPorts 9 (Spec.rd w) (Spec.rs1 w) (Spec.rs2 w))
      [(0x403160B3#32, "ERROR UnrecognizedFunct7(funct7=32)"), (0x003160B3#32, "or x1,x2,x3")] ∧
  -- R110 and
  Spec.InstrRule 0x00007033#32 0xFE00707F#32 (Spec.key3 0b0110011 0b111 0b0000000)
      (fun w => Spec.rPorts 10 (Spec.rd w) (Spec.rs1 w) (Spec.rs2 w))
      [(0x01FFFFB3#32, "and x31,x31,x31"), (0x003170B3#32, "and x1,x2,x3")]

/-- The immediate is at most 4095, and at least 2048 with w[31] = 1; an OP-IMM shift word with a funct7 without a
leaf raises UnrecognizedFunct7; JALR with funct3 other than 000 raises UnrecognizedFunct3; the slli and srli
immediate is the shift amount and srai's is 1024 more; and each of the ten instructions has its encoding,
outputs and example texts. (R121, R122, R123, R124, R125, R126, R127, R128, R129, R130) -/
def Obligations.IFormatRules : Prop :=
  (∀ w, Spec.immI w ≤ 4095 ∧ (Spec.slice w 31 31 = 1 → 2048 ≤ Spec.immI w)) ∧
  (∀ w, Spec.key2 0b0010011 0b001 w → Spec.slice w 31 25 ≠ 0b0000000 → Spec.Gives w (Spec.errPorts 3 3 (Spec.slice w 31 25))) ∧
  (∀ w, Spec.key2 0b0010011 0b101 w → Spec.slice w 31 25 ∉ [0b0000000, 0b0100000] →
    Spec.Gives w (Spec.errPorts 3 3 (Spec.slice w 31 25))) ∧
  (∀ w, Spec.key1 0b1100111 w → Spec.slice w 14 12 ≠ 0b000 → Spec.Gives w (Spec.errPorts 2 2 (Spec.slice w 14 12))) ∧
  (∀ w, Spec.key3 0b0010011 0b001 0b0000000 w → Spec.immI w = Spec.slice w 24 20) ∧
  (∀ w, Spec.key3 0b0010011 0b101 0b0000000 w → Spec.immI w = Spec.slice w 24 20) ∧
  (∀ w, Spec.key3 0b0010011 0b101 0b0100000 w → Spec.immI w = 1024 + Spec.slice w 24 20) ∧
  -- R121 addi
  Spec.InstrRule 0x00000013#32 0x0000707F#32 (Spec.key2 0b0010011 0b000)
      (fun w => Spec.iPorts 11 (Spec.rd w) (Spec.rs1 w) (BitVec.ofNat 20 (Spec.immI w)))
      [(0x00000013#32, "addi x0,x0,0"), (0xFFF08093#32, "addi x1,x1,4095"), (0x00558513#32, "addi x10,x11,5")] ∧
  -- R122 slti
  Spec.InstrRule 0x00002013#32 0x0000707F#32 (Spec.key2 0b0010011 0b010)
      (fun w => Spec.iPorts 12 (Spec.rd w) (Spec.rs1 w) (BitVec.ofNat 20 (Spec.immI w)))
      [(0xFFF5A513#32, "slti x10,x11,4095"), (0x0015A513#32, "slti x10,x11,1")] ∧
  -- R123 sltiu
  Spec.InstrRule 0x00003013#32 0x0000707F#32 (Spec.key2 0b0010011 0b011)
      (fun w => Spec.iPorts 13 (Spec.rd w) (Spec.rs1 w) (BitVec.ofNat 20 (Spec.immI w)))
      [(0x8005B513#32, "sltiu x10,x11,2048"), (0x0015B513#32, "sltiu x10,x11,1")] ∧
  -- R124 xori
  Spec.InstrRule 0x00004013#32 0x0000707F#32 (Spec.key2 0b0010011 0b100)
      (fun w => Spec.iPorts 14 (Spec.rd w) (Spec.rs1 w) (BitVec.ofNat 20 (Spec.immI w)))
      [(0xFFF2C293#32, "xori x5,x5,4095"), (0x8005C513#32, "xori x10,x11,2048")] ∧
  -- R125 ori
  Spec.InstrRule 0x00006013#32 0x0000707F#32 (Spec.key2 0b0010011 0b110)
      (fun w => Spec.iPorts 15 (Spec.rd w) (Spec.rs1 w) (BitVec.ofNat 20 (Spec.immI w)))
      [(0x00006013#32, "ori x0,x0,0"), (0x0FF5E513#32, "ori x10,x11,255")] ∧
  -- R126 andi
  Spec.InstrRule 0x00007013#32 0x0000707F#32 (Spec.key2 0b0010011 0b111)
      (fun w => Spec.iPorts 16 (Spec.rd w) (Spec.rs1 w) (BitVec.ofNat 20 (Spec.immI w)))
      [(0x0FF57513#32, "andi x10,x10,255"), (0x00F5F513#32, "andi x10,x11,15")] ∧
  -- R127 slli
  Spec.InstrRule 0x00001013#32 0xFE00707F#32 (Spec.key3 0b0010011 0b001 0b0000000)
      (fun w => Spec.iPorts 17 (Spec.rd w) (Spec.rs1 w) (BitVec.ofNat 20 (Spec.immI w)))
      [(0x00031293#32, "slli x5,x6,0"), (0x01F31293#32, "slli x5,x6,31"),
        (0x02031293#32, "ERROR UnrecognizedFunct7(funct7=1)"), (0x00331293#32, "slli x5,x6,3")] ∧
  -- R128 srli
  Spec.InstrRule 0x00005013#32 0xFE00707F#32 (Spec.key3 0b0010011 0b101 0b0000000)
      (fun w => Spec.iPorts 18 (Spec.rd w) (Spec.rs1 w) (BitVec.ofNat 20 (Spec.immI w)))
      [(0x00035293#32, "srli x5,x6,0"), (0x02135293#32, "ERROR UnrecognizedFunct7(funct7=1)"),
        (0x01F35293#32, "srli x5,x6,31")] ∧
  -- R129 srai
  Spec.InstrRule 0x40005013#32 0xFE00707F#32 (Spec.key3 0b0010011 0b101 0b0100000)
      (fun w => Spec.iPorts 19 (Spec.rd w) (Spec.rs1 w) (BitVec.ofNat 20 (Spec.immI w)))
      [(0x40035293#32, "srai x5,x6,1024"), (0x41F35293#32, "srai x5,x6,1055"),
        (0x60135293#32, "ERROR UnrecognizedFunct7(funct7=48)"), (0x40435293#32, "srai x5,x6,1028")] ∧
  -- R130 jalr
  Spec.InstrRule 0x00000067#32 0x0000707F#32 (Spec.key2 0b1100111 0b000)
      (fun w => Spec.iPorts 20 (Spec.rd w) (Spec.rs1 w) (BitVec.ofNat 20 (Spec.immI w)))
      [(0x00008067#32, "jalr x0,x1,0"), (0xFFF280E7#32, "jalr x1,x5,4095"),
        (0x00009067#32, "ERROR UnrecognizedFunct3(funct3=1)")]

/-- LOAD words with funct3 011, 110 or 111 raise UnrecognizedFunct3; every other LOAD word gives rd and imm(rs1)
with the unsigned immediate w[31:20]; each of the five loads has its encoding, outputs and example texts,
whatever rd, rs1 and the immediate. (R140, R141, R142, R143, R144, R145) -/
def Obligations.LoadRules : Prop :=
  (∀ w, Spec.key1 0b0000011 w → Spec.slice w 14 12 ∈ [0b011, 0b110, 0b111] → Spec.Gives w (Spec.errPorts 2 2 (Spec.slice w 14 12))) ∧
  (∀ w, Spec.key1 0b0000011 w → Spec.slice w 14 12 ∉ [0b011, 0b110, 0b111] →
    ∃ id, Spec.Gives w (Spec.loadPorts id (Spec.rd w) (BitVec.ofNat 20 (Spec.immI w)) (Spec.rs1 w))) ∧
  -- R141 lb
  Spec.InstrRule 0x00000003#32 0x0000707F#32 (Spec.key2 0b0000011 0b000)
      (fun w => Spec.loadPorts 21 (Spec.rd w) (BitVec.ofNat 20 (Spec.immI w)) (Spec.rs1 w))
      [(0xFFF10503#32, "lb x10,4095(x2)"), (0x00000003#32, "lb x0,0(x0)"), (0x00810503#32, "lb x10,8(x2)")] ∧
  -- R142 lh
  Spec.InstrRule 0x00001003#32 0x0000707F#32 (Spec.key2 0b0000011 0b001)
      (fun w => Spec.loadPorts 22 (Spec.rd w) (BitVec.ofNat 20 (Spec.immI w)) (Spec.rs1 w))
      [(0x80041483#32, "lh x9,2048(x8)"), (0x00811503#32, "lh x10,8(x2)")] ∧
  -- R143 lw
  Spec.InstrRule 0x00002003#32 0x0000707F#32 (Spec.key2 0b0000011 0b010)
      (fun w => Spec.loadPorts 23 (Spec.rd w) (BitVec.ofNat 20 (Spec.immI w)) (Spec.rs1 w))
      [(0x00002083#32, "lw x1,0(x0)"), (0x00813503#32, "ERROR UnrecognizedFunct3(funct3=3)"),
        (0x00812503#32, "lw x10,8(x2)")] ∧
  -- R144 lbu
  Spec.InstrRule 0x00004003#32 0x0000707F#32 (Spec.key2 0b0000011 0b100)
      (fun w => Spec.loadPorts 24 (Spec.rd w) (BitVec.ofNat 20 (Spec.immI w)) (Spec.rs1 w))
      [(0xFFFFCF83#32, "lbu x31,4095(x31)"), (0x00814503#32, "lbu x10,8(x2)")] ∧
  -- R145 lhu
  Spec.InstrRule 0x00005003#32 0x0000707F#32 (Spec.key2 0b0000011 0b101)
      (fun w => Spec.loadPorts 25 (Spec.rd w) (BitVec.ofNat 20 (Spec.immI w)) (Spec.rs1 w))
      [(0x00816503#32, "ERROR UnrecognizedFunct3(funct3=6)"), (0x00815503#32, "lhu x10,8(x2)")]

/-- STORE words with funct3 011 to 111 raise UnrecognizedFunct3; every other STORE word gives rs2 and imm(rs1), the
immediate having w[31:25] as its bits 11..5 and w[11:7] as its bits 4..0 (so 0000001 with 00000 is 32, not 1);
each of the three stores has its encoding, outputs and example texts. (R150, R151, R152, R153, R154) -/
def Obligations.StoreRules : Prop :=
  (∀ w, Spec.key1 0b0100011 w → 0b011 ≤ Spec.slice w 14 12 → Spec.Gives w (Spec.errPorts 2 2 (Spec.slice w 14 12))) ∧
  (∀ w, Spec.key1 0b0100011 w → Spec.slice w 14 12 < 0b011 → ∃ id, Spec.Gives w (Spec.storePorts id (Spec.rs2 w) (BitVec.ofNat 20 (Spec.immS w)) (Spec.rs1 w))) ∧
  (∀ w, Spec.immS w ≤ 4095 ∧ (Spec.slice w 31 25 = 0b0000001 → Spec.slice w 11 7 = 0b00000 → Spec.immS w = 32)) ∧
  -- R151 sb
  Spec.InstrRule 0x00000023#32 0x0000707F#32 (Spec.key2 0b0100011 0b000)
      (fun w => Spec.storePorts 26 (Spec.rs2 w) (BitVec.ofNat 20 (Spec.immS w)) (Spec.rs1 w))
      [(0x02A10023#32, "sb x10,32(x2)"), (0x00A100A3#32, "sb x10,1(x2)"), (0x00A10623#32, "sb x10,12(x2)")] ∧
  -- R152 sh
  Spec.InstrRule 0x00001023#32 0x0000707F#32 (Spec.key2 0b0100011 0b001)
      (fun w => Spec.storePorts 27 (Spec.rs2 w) (BitVec.ofNat 20 (Spec.immS w)) (Spec.rs1 w))
      [(0xFEA11FA3#32, "sh x10,4095(x2)"), (0x00A11623#32, "sh x10,12(x2)")] ∧
  -- R153 sw
  Spec.InstrRule 0x00002023#32 0x0000707F#32 (Spec.key2 0b0100011 0b010)
      (fun w => Spec.storePorts 28 (Spec.rs2 w) (BitVec.ofNat 20 (Spec.immS w)) (Spec.rs1 w))
      [(0x00002023#32, "sw x0,0(x0)"), (0x00A13423#32, "ERROR UnrecognizedFunct3(funct3=3)"),
        (0x00A12623#32, "sw x10,12(x2)")]

/-- BRANCH words with funct3 010 or 011 raise UnrecognizedFunct3; every other BRANCH word gives rs1, rs2 and the
12-bit unsigned interleaved immediate; each of the six branches has its encoding, outputs and example texts.
(R160, R161, R162, R163, R164, R165, R166) -/
def Obligations.BranchRules : Prop :=
  (∀ w, Spec.key1 0b1100011 w → Spec.slice w 14 12 ∈ [0b010, 0b011] → Spec.Gives w (Spec.errPorts 2 2 (Spec.slice w 14 12))) ∧
  (∀ w, Spec.key1 0b1100011 w → Spec.slice w 14 12 ∉ [0b010, 0b011] → ∃ id, Spec.Gives w (Spec.branchPorts id (Spec.rs1 w) (Spec.rs2 w) (BitVec.ofNat 20 (Spec.immSB w)))) ∧
  (∀ w, Spec.immSB w ≤ 4095) ∧
  -- R161 beq
  Spec.InstrRule 0x00000063#32 0x0000707F#32 (Spec.key2 0b1100011 0b000)
      (fun w => Spec.branchPorts 29 (Spec.rs1 w) (Spec.rs2 w) (BitVec.ofNat 20 (Spec.immSB w)))
      [(0xFEB50FE3#32, "beq x10,x11,4095"), (0x00000063#32, "beq x0,x0,0"), (0x00B50863#32, "beq x10,x11,8")] ∧
  -- R162 bne
  Spec.InstrRule 0x00001063#32 0x0000707F#32 (Spec.key2 0b1100011 0b001)
      (fun w => Spec.branchPorts 30 (Spec.rs1 w) (Spec.rs2 w) (BitVec.ofNat 20 (Spec.immSB w)))
      [(0x000290E3#32, "bne x5,x0,1024"), (0x80029063#32, "bne x5,x0,2048"), (0x00B51863#32, "bne x10,x11,8")] ∧
  -- R163 blt
  Spec.InstrRule 0x00004063#32 0x0000707F#32 (Spec.key2 0b1100011 0b100)
      (fun w => Spec.branchPorts 31 (Spec.rs1 w) (Spec.rs2 w) (BitVec.ofNat 20 (Spec.immSB w)))
      [(0x0062C163#32, "blt x5,x6,1"), (0x00B54863#32, "blt x10,x11,8")] ∧
  -- R164 bge
  Spec.InstrRule 0x00005063#32 0x0000707F#32 (Spec.key2 0b1100011 0b101)
      (fun w => Spec.branchPorts 32 (Spec.rs1 w) (Spec.rs2 w) (BitVec.ofNat 20 (Spec.immSB w)))
      [(0x0262D063#32, "bge x5,x6,16"), (0x00B55863#32, "bge x10,x11,8")] ∧
  -- R165 bltu
  Spec.InstrRule 0x00006063#32 0x0000707F#32 (Spec.key2 0b1100011 0b110)
      (fun w => Spec.branchPorts 33 (Spec.rs1 w) (Spec.rs2 w) (BitVec.ofNat 20 (Spec.immSB w)))
      [(0x00B52863#32, "ERROR UnrecognizedFunct3(funct3=2)"), (0x00B56863#32, "bltu x10,x11,8")] ∧
  -- R166 bgeu
  Spec.InstrRule 0x00007063#32 0x0000707F#32 (Spec.key2 0b1100011 0b111)
      (fun w => Spec.branchPorts 34 (Spec.rs1 w) (Spec.rs2 w) (BitVec.ofNat 20 (Spec.immSB w)))
      [(0x00B53863#32, "ERROR UnrecognizedFunct3(funct3=3)"), (0x00B57863#32, "bgeu x10,x11,8")]

/-- Every word of opcode 0010111 decodes as auipc and every word of opcode 0110111 as lui, with rd and the 20-bit
unsigned unshifted immediate w[31:12], the two differing in format code; each has its encoding and example
texts. (R170, R171, R172) -/
def Obligations.UpperImmediateRules : Prop :=
  (∀ w, Spec.immU w ≤ 1048575) ∧
  -- R171 auipc
  Spec.InstrRule 0x00000017#32 0x0000007F#32 (Spec.key1 0b0010111)
      (fun w => Spec.upperPorts 5 35 (Spec.rd w) (BitVec.ofNat 20 (Spec.immU w)))
      [(0xFFFFF297#32, "auipc x5,1048575"), (0x00000017#32, "auipc x0,0"), (0x00001297#32, "auipc x5,1")] ∧
  -- R172 lui
  Spec.InstrRule 0x00000037#32 0x0000007F#32 (Spec.key1 0b0110111)
      (fun w => Spec.upperPorts 6 36 (Spec.rd w) (BitVec.ofNat 20 (Spec.immU w)))
      [(0xFFFFFFB7#32, "lui x31,1048575"), (0x800000B7#32, "lui x1,524288"), (0x003E8337#32, "lui x6,1000")]

/-- Every word of opcode 1101111 decodes as jal with rd and the immediate whose bit 19 is w[31], bits 18..11
w[19:12], bit 10 w[20] and bits 9..0 w[30:21], unsigned and unscaled; its encoding and example texts are those
of its rule. (R180, R181) -/
def Obligations.JumpRules : Prop :=
  (∀ w, Spec.immUJ w ≤ 1048575) ∧
  -- R181 jal
  Spec.InstrRule 0x0000006F#32 0x0000007F#32 (Spec.key1 0b1101111)
      (fun w => Spec.jumpPorts 37 (Spec.rd w) (BitVec.ofNat 20 (Spec.immUJ w)))
      [(0x002000EF#32, "jal x1,1"), (0x001000EF#32, "jal x1,1024"), (0x000010EF#32, "jal x1,2048"),
        (0xFFFFF06F#32, "jal x0,1048575"), (0x0000006F#32, "jal x0,0")]

/-- SYSTEM words with funct3 100 raise UnrecognizedFunct3; with funct3 000 and funct12 other than 0 and 1
UnrecognizedFunct7 naming funct12; every other SYSTEM word gives rd, the CSR number w[31:20] and the register of
w[19:15], for every CSR number, with csr_o = w[31:20] and no immediate, the immediate forms and ecall and ebreak
included; each of the eight has its encoding, outputs and example texts. (R190, R199, R191, R192, R193, R194,
R195, R196, R197, R198) -/
def Obligations.SystemRules : Prop :=
  (∀ w, Spec.key2 0b1110011 0b100 w → Spec.Gives w (Spec.errPorts 2 2 0b100)) ∧
  (∀ w, Spec.key2 0b1110011 0b000 w → Spec.slice w 31 20 ∉ [0, 1] → Spec.Gives w (Spec.errPorts 3 4 (Spec.slice w 31 20))) ∧
  (∀ w, Spec.key1 0b1110011 w → Spec.slice w 14 12 ≠ 0b100 → (Spec.slice w 14 12 = 0b000 → Spec.slice w 31 20 ∈ [0, 1]) →
    ∃ id, Spec.Gives w (Spec.csrPorts id (Spec.rd w) (BitVec.ofNat 12 (Spec.slice w 31 20)) (Spec.rs1 w))) ∧
  -- R191 csrrw
  Spec.InstrRule 0x00001073#32 0x0000707F#32 (Spec.key2 0b1110011 0b001)
      (fun w => Spec.csrPorts 38 (Spec.rd w) (BitVec.ofNat 12 (Spec.slice w 31 20)) (Spec.rs1 w))
      [(0x30029073#32, "csrrw x0,768,x5"), (0xFFF09173#32, "csrrw x2,4095,x1"),
        (0x30029573#32, "csrrw x10,768,x5")] ∧
  -- R192 csrrs
  Spec.InstrRule 0x00002073#32 0x0000707F#32 (Spec.key2 0b1110011 0b010)
      (fun w => Spec.csrPorts 39 (Spec.rd w) (BitVec.ofNat 12 (Spec.slice w 31 20)) (Spec.rs1 w))
      [(0xC0002573#32, "csrrs x10,3072,x0"), (0x3002A573#32, "csrrs x10,768,x5")] ∧
  -- R193 csrrc
  Spec.InstrRule 0x00003073#32 0x0000707F#32 (Spec.key2 0b1110011 0b011)
      (fun w => Spec.csrPorts 40 (Spec.rd w) (BitVec.ofNat 12 (Spec.slice w 31 20)) (Spec.rs1 w))
      [(0x0002B573#32, "csrrc x10,0,x5"), (0x3002B573#32, "csrrc x10,768,x5")] ∧
  -- R194 csrrwi
  Spec.InstrRule 0x00005073#32 0x0000707F#32 (Spec.key2 0b1110011 0b101)
      (fun w => Spec.csrPorts 41 (Spec.rd w) (BitVec.ofNat 12 (Spec.slice w 31 20)) (Spec.rs1 w))
      [(0x300FD573#32, "csrrwi x10,768,x31"), (0x3002D573#32, "csrrwi x10,768,x5")] ∧
  -- R195 csrrsi
  Spec.InstrRule 0x00006073#32 0x0000707F#32 (Spec.key2 0b1110011 0b110)
      (fun w => Spec.csrPorts 42 (Spec.rd w) (BitVec.ofNat 12 (Spec.slice w 31 20)) (Spec.rs1 w))
      [(0x30006573#32, "csrrsi x10,768,x0"), (0x3002E573#32, "csrrsi x10,768,x5")] ∧
  -- R196 csrrci
  Spec.InstrRule 0x00007073#32 0x0000707F#32 (Spec.key2 0b1110011 0b111)
      (fun w => Spec.csrPorts 43 (Spec.rd w) (BitVec.ofNat 12 (Spec.slice w 31 20)) (Spec.rs1 w))
      [(0x30047573#32, "csrrci x10,768,x8"), (0x3002F573#32, "csrrci x10,768,x5")] ∧
  -- R197 ecall
  Spec.InstrRule 0x00000073#32 0xFFF0707F#32 (Spec.key12 0b1110011 0b000 0b000000000000)
      (fun w => Spec.csrPorts 44 (Spec.rd w) (BitVec.ofNat 12 (Spec.slice w 31 20)) (Spec.rs1 w))
      [(0x000002F3#32, "ecall x5,0,x0"), (0x30200073#32, "ERROR UnrecognizedFunct7(funct12=770)"),
        (0x10500073#32, "ERROR UnrecognizedFunct7(funct12=261)"), (0x00000073#32, "ecall x0,0,x0")] ∧
  -- R198 ebreak
  Spec.InstrRule 0x00100073#32 0xFFF0707F#32 (Spec.key12 0b1110011 0b000 0b000000000001)
      (fun w => Spec.csrPorts 45 (Spec.rd w) (BitVec.ofNat 12 (Spec.slice w 31 20)) (Spec.rs1 w))
      [(0x00108073#32, "ebreak x0,1,x1"), (0x00200073#32, "ERROR UnrecognizedFunct7(funct12=2)"),
        (0x00100073#32, "ebreak x0,1,x0")]
end

