-- ==== Sys2Proof/Laws/Fields.lean ====
section
/-! SUPPORT. Bit fields as natural numbers: a slice is a quotient and a remainder, a concatenation is a sum, and the word
that `pack` lays out has the fields it was given. -/

namespace Sys2Proof

theorem toNat_append {a b : Nat} (x : BitVec a) (y : BitVec b) : (x ++ y).toNat = x.toNat * 2 ^ b + y.toNat := by
  rw [BitVec.toNat_append, ← Nat.shiftLeft_add_eq_or_of_lt y.isLt, Nat.shiftLeft_eq]

theorem add_mul_div {a b k : Nat} (h : b < k) : (a * k + b) / k = a := by
  rw [Nat.mul_comm, Nat.mul_add_div (by omega), Nat.div_eq_of_lt h, Nat.add_zero]

theorem add_mul_mod {a b k : Nat} (h : b < k) : (a * k + b) % k = b := by
  rw [Nat.mul_comm, Nat.mul_add_mod, Nat.mod_eq_of_lt h]

theorem toNat_slice {n : Nat} (w : BitVec n) (lo len : Nat) : (w.extractLsb' lo len).toNat = w.toNat / 2 ^ lo % 2 ^ len := by
  simp [BitVec.extractLsb'_toNat, Nat.shiftRight_eq_div_pow]

theorem toNat_pack (f7 : BitVec 7) (rs2 rs1 : BitVec 5) (f3 : BitVec 3) (rd : BitVec 5) (op : BitVec 7) :
    (pack f7 rs2 rs1 f3 rd op).toNat =
      f7.toNat * 2 ^ 25 + rs2.toNat * 2 ^ 20 + rs1.toNat * 2 ^ 15 + f3.toNat * 2 ^ 12 + rd.toNat * 2 ^ 7 + op.toNat := by
  have h : (pack f7 rs2 rs1 f3 rd op).toNat =
      ((((f7.toNat * 2 ^ 5 + rs2.toNat) * 2 ^ 5 + rs1.toNat) * 2 ^ 3 + f3.toNat) * 2 ^ 5 + rd.toNat) * 2 ^ 7 + op.toNat := by
    simp only [← toNat_append]
    rfl
  rw [h]
  omega

section
variable (f7 : BitVec 7) (rs2 rs1 : BitVec 5) (f3 : BitVec 3) (rd : BitVec 5) (op : BitVec 7)

@[simp] theorem fieldOpcode_pack : fieldOpcode (pack f7 rs2 rs1 f3 rd op) = op := by
  apply BitVec.eq_of_toNat_eq
  rw [fieldOpcode, toNat_slice, toNat_pack]
  omega

@[simp] theorem fieldRd_pack : fieldRd (pack f7 rs2 rs1 f3 rd op) = rd := by
  apply BitVec.eq_of_toNat_eq
  rw [fieldRd, toNat_slice, toNat_pack]
  omega

@[simp] theorem fieldFunct3_pack : fieldFunct3 (pack f7 rs2 rs1 f3 rd op) = f3 := by
  apply BitVec.eq_of_toNat_eq
  rw [fieldFunct3, toNat_slice, toNat_pack]
  omega

@[simp] theorem fieldRs1_pack : fieldRs1 (pack f7 rs2 rs1 f3 rd op) = rs1 := by
  apply BitVec.eq_of_toNat_eq
  rw [fieldRs1, toNat_slice, toNat_pack]
  omega

@[simp] theorem fieldRs2_pack : fieldRs2 (pack f7 rs2 rs1 f3 rd op) = rs2 := by
  apply BitVec.eq_of_toNat_eq
  rw [fieldRs2, toNat_slice, toNat_pack]
  omega

@[simp] theorem fieldFunct7_pack : fieldFunct7 (pack f7 rs2 rs1 f3 rd op) = f7 := by
  apply BitVec.eq_of_toNat_eq
  rw [fieldFunct7, toNat_slice, toNat_pack]
  omega

@[simp] theorem field31_20_pack : field31_20 (pack f7 rs2 rs1 f3 rd op) = f7 ++ rs2 := by
  apply BitVec.eq_of_toNat_eq
  rw [field31_20, toNat_slice, toNat_pack, toNat_append]
  omega

end

/-- A word is the six fields of R57 laid side by side: no bit is outside them. -/
theorem pack_fields (w : Word) :
    pack (fieldFunct7 w) (fieldRs2 w) (fieldRs1 w) (fieldFunct3 w) (fieldRd w) (fieldOpcode w) = w := by
  apply BitVec.eq_of_toNat_eq
  simp only [toNat_pack, fieldFunct7, fieldRs2, fieldRs1, fieldFunct3, fieldRd, fieldOpcode, toNat_slice]
  omega

/-! ## The raw slices of a packed word, in terms of its six fields -/

section
variable (f7 : BitVec 7) (rs2 rs1 : BitVec 5) (f3 : BitVec 3) (rd : BitVec 5) (op : BitVec 7)

theorem field31_25_pack : field31_25 (pack f7 rs2 rs1 f3 rd op) = f7 := fieldFunct7_pack ..

theorem field11_7_pack : field11_7 (pack f7 rs2 rs1 f3 rd op) = rd := fieldRd_pack ..

theorem toNat_field31_pack : (field31 (pack f7 rs2 rs1 f3 rd op)).toNat = f7.toNat / 2 ^ 6 := by
  rw [field31, toNat_slice, toNat_pack]
  omega

theorem toNat_field30_25_pack : (field30_25 (pack f7 rs2 rs1 f3 rd op)).toNat = f7.toNat % 2 ^ 6 := by
  rw [field30_25, toNat_slice, toNat_pack]
  omega

theorem toNat_field7_pack : (field7 (pack f7 rs2 rs1 f3 rd op)).toNat = rd.toNat % 2 ^ 1 := by
  rw [field7, toNat_slice, toNat_pack]
  omega

theorem toNat_field11_8_pack : (field11_8 (pack f7 rs2 rs1 f3 rd op)).toNat = rd.toNat / 2 ^ 1 := by
  rw [field11_8, toNat_slice, toNat_pack]
  omega

theorem toNat_field31_12_pack : (field31_12 (pack f7 rs2 rs1 f3 rd op)).toNat =
    f7.toNat * 2 ^ 13 + rs2.toNat * 2 ^ 8 + rs1.toNat * 2 ^ 3 + f3.toNat := by
  rw [field31_12, toNat_slice, toNat_pack]
  omega

theorem toNat_field19_12_pack : (field19_12 (pack f7 rs2 rs1 f3 rd op)).toNat = rs1.toNat * 2 ^ 3 + f3.toNat := by
  rw [field19_12, toNat_slice, toNat_pack]
  omega

theorem toNat_field20_pack : (field20 (pack f7 rs2 rs1 f3 rd op)).toNat = rs2.toNat % 2 ^ 1 := by
  rw [field20, toNat_slice, toNat_pack]
  omega

theorem toNat_field30_21_pack :
    (field30_21 (pack f7 rs2 rs1 f3 rd op)).toNat = f7.toNat % 2 ^ 6 * 2 ^ 4 + rs2.toNat / 2 ^ 1 := by
  rw [field30_21, toNat_slice, toNat_pack]
  omega

end

/-! ## Immediates: what the reassembly of R72 reads from the words the encoder lays out -/

theorem immI_encodeI (m : Mnemonic) (rd rs1 : RegIdx) (imm : Imm12) : immI (encodeI m rd rs1 imm) = imm := by
  apply BitVec.eq_of_toNat_eq
  have := imm.isLt
  simp only [immI, encodeI, field31_20_pack, toNat_append, toNat_slice]
  omega

theorem immS_encodeS (m : Mnemonic) (rs2 rs1 : RegIdx) (imm : Imm12) : immS (encodeS m rs2 rs1 imm) = imm := by
  apply BitVec.eq_of_toNat_eq
  have := imm.isLt
  simp only [immS, encodeS, field31_25_pack, field11_7_pack, toNat_append, toNat_slice]
  omega

theorem immSB_encodeSB (m : Mnemonic) (rs1 rs2 : RegIdx) (imm : Imm12) : immSB (encodeSB m rs1 rs2 imm) = imm := by
  apply BitVec.eq_of_toNat_eq
  have := imm.isLt
  simp only [immSB, encodeSB, toNat_append, toNat_field31_pack, toNat_field7_pack, toNat_field30_25_pack,
    toNat_field11_8_pack, toNat_slice]
  have hsum : imm.toNat = imm.toNat / 2 ^ 11 % 2 ^ 1 * 2 ^ 11 + imm.toNat / 2 ^ 10 % 2 ^ 1 * 2 ^ 10 + imm.toNat / 2 ^ 4 % 2 ^ 6 * 2 ^ 4 + imm.toNat / 2 ^ 0 % 2 ^ 4 := by
    omega
  have h0 : imm.toNat / 2 ^ 11 % 2 ^ 1 < 2 ^ 1 := Nat.mod_lt _ (by decide)
  have h1 : imm.toNat / 2 ^ 10 % 2 ^ 1 < 2 ^ 1 := Nat.mod_lt _ (by decide)
  have h2 : imm.toNat / 2 ^ 4 % 2 ^ 6 < 2 ^ 6 := Nat.mod_lt _ (by decide)
  have h3 : imm.toNat / 2 ^ 0 % 2 ^ 4 < 2 ^ 4 := Nat.mod_lt _ (by decide)
  generalize imm.toNat / 2 ^ 11 % 2 ^ 1 = p0 at hsum h0 ⊢
  generalize imm.toNat / 2 ^ 10 % 2 ^ 1 = p1 at hsum h1 ⊢
  generalize imm.toNat / 2 ^ 4 % 2 ^ 6 = p2 at hsum h2 ⊢
  generalize imm.toNat / 2 ^ 0 % 2 ^ 4 = p3 at hsum h3 ⊢
  rw [add_mul_div h2, add_mul_mod h2, add_mul_div h1, add_mul_mod h1]
  omega

theorem immU_encodeU (m : Mnemonic) (rd : RegIdx) (imm : Imm20) : immU (encodeU m rd imm) = imm := by
  apply BitVec.eq_of_toNat_eq
  have := imm.isLt
  simp only [immU, encodeU, toNat_field31_12_pack, toNat_slice]
  omega

theorem immUJ_encodeUJ (m : Mnemonic) (rd : RegIdx) (imm : Imm20) : immUJ (encodeUJ m rd imm) = imm := by
  apply BitVec.eq_of_toNat_eq
  have := imm.isLt
  simp only [immUJ, encodeUJ, toNat_append, toNat_field31_pack, toNat_field19_12_pack, toNat_field20_pack,
    toNat_field30_21_pack, toNat_slice]
  have hsum : imm.toNat = imm.toNat / 2 ^ 19 % 2 ^ 1 * 2 ^ 19 + imm.toNat / 2 ^ 14 % 2 ^ 5 * 2 ^ 14 + imm.toNat / 2 ^ 11 % 2 ^ 3 * 2 ^ 11 + imm.toNat / 2 ^ 10 % 2 ^ 1 * 2 ^ 10 + imm.toNat / 2 ^ 4 % 2 ^ 6 * 2 ^ 4 + imm.toNat / 2 ^ 0 % 2 ^ 4 := by
    omega
  have h0 : imm.toNat / 2 ^ 19 % 2 ^ 1 < 2 ^ 1 := Nat.mod_lt _ (by decide)
  have h1 : imm.toNat / 2 ^ 14 % 2 ^ 5 < 2 ^ 5 := Nat.mod_lt _ (by decide)
  have h2 : imm.toNat / 2 ^ 11 % 2 ^ 3 < 2 ^ 3 := Nat.mod_lt _ (by decide)
  have h3 : imm.toNat / 2 ^ 10 % 2 ^ 1 < 2 ^ 1 := Nat.mod_lt _ (by decide)
  have h4 : imm.toNat / 2 ^ 4 % 2 ^ 6 < 2 ^ 6 := Nat.mod_lt _ (by decide)
  have h5 : imm.toNat / 2 ^ 0 % 2 ^ 4 < 2 ^ 4 := Nat.mod_lt _ (by decide)
  generalize imm.toNat / 2 ^ 19 % 2 ^ 1 = p0 at hsum h0 ⊢
  generalize imm.toNat / 2 ^ 14 % 2 ^ 5 = p1 at hsum h1 ⊢
  generalize imm.toNat / 2 ^ 11 % 2 ^ 3 = p2 at hsum h2 ⊢
  generalize imm.toNat / 2 ^ 10 % 2 ^ 1 = p3 at hsum h3 ⊢
  generalize imm.toNat / 2 ^ 4 % 2 ^ 6 = p4 at hsum h4 ⊢
  generalize imm.toNat / 2 ^ 0 % 2 ^ 4 = p5 at hsum h5 ⊢
  rw [add_mul_div h4, add_mul_mod h4, add_mul_div h3, add_mul_mod h3]
  omega

end Sys2Proof
end

