-- ==== Sys2Proof/Laws/Masks.lean ====
section
/-! SUPPORT. The masks of spec/opcode_table.json applied to a word laid out by `pack`, and which fields of a word decide whether
it lies in a row. -/

namespace Sys2Proof

theorem and_append {a b : Nat} (x x' : BitVec a) (y y' : BitVec b) :
    (x ++ y) &&& (x' ++ y') = (x &&& x') ++ (y &&& y') := by
  ext i hi
  simp only [BitVec.getElem_and, BitVec.getElem_append]
  split <;> simp

theorem pack_and (f7 f7' : BitVec 7) (rs2 rs2' rs1 rs1' : BitVec 5) (f3 f3' : BitVec 3) (rd rd' : BitVec 5)
    (op op' : BitVec 7) :
    pack f7 rs2 rs1 f3 rd op &&& pack f7' rs2' rs1' f3' rd' op' =
      pack (f7 &&& f7') (rs2 &&& rs2') (rs1 &&& rs1') (f3 &&& f3') (rd &&& rd') (op &&& op') := by
  have h : (f7 ++ rs2 ++ rs1 ++ f3 ++ rd ++ op) &&& (f7' ++ rs2' ++ rs1' ++ f3' ++ rd' ++ op') =
      (f7 &&& f7') ++ (rs2 &&& rs2') ++ (rs1 &&& rs1') ++ (f3 &&& f3') ++ (rd &&& rd') ++ (op &&& op') := by
    rw [and_append, and_append, and_append, and_append, and_append]
  exact h

section
variable (f7 : BitVec 7) (rs2 rs1 : BitVec 5) (f3 : BitVec 3) (rd : BitVec 5) (op : BitVec 7)

/-- Opcode, funct3 and funct7 are kept. -/
theorem pack_mask_key3 : pack f7 rs2 rs1 f3 rd op &&& 0xFE00707F#32 = pack f7 0 0 f3 0 op := by
  have h := pack_and f7 (BitVec.allOnes 7) rs2 0 rs1 0 f3 (BitVec.allOnes 3) rd 0 op (BitVec.allOnes 7)
  rw [show pack (BitVec.allOnes 7) 0 0 (BitVec.allOnes 3) 0 (BitVec.allOnes 7) = 0xFE00707F#32 by decide] at h
  simpa only [BitVec.and_allOnes, BitVec.ofNat_eq_ofNat, BitVec.and_zero] using h

/-- Opcode and funct3 are kept. -/
theorem pack_mask_key2 : pack f7 rs2 rs1 f3 rd op &&& 0x0000707F#32 = pack 0 0 0 f3 0 op := by
  have h := pack_and f7 0 rs2 0 rs1 0 f3 (BitVec.allOnes 3) rd 0 op (BitVec.allOnes 7)
  rw [show pack 0 0 0 (BitVec.allOnes 3) 0 (BitVec.allOnes 7) = 0x0000707F#32 by decide] at h
  simpa only [BitVec.and_allOnes, BitVec.ofNat_eq_ofNat, BitVec.and_zero] using h

/-- Opcode alone is kept. -/
theorem pack_mask_key1 : pack f7 rs2 rs1 f3 rd op &&& 0x0000007F#32 = pack 0 0 0 0 0 op := by
  have h := pack_and f7 0 rs2 0 rs1 0 f3 0 rd 0 op (BitVec.allOnes 7)
  rw [show pack 0 0 0 0 0 (BitVec.allOnes 7) = 0x0000007F#32 by decide] at h
  simpa only [BitVec.and_allOnes, BitVec.ofNat_eq_ofNat, BitVec.and_zero] using h

/-- Opcode, funct3 and funct12 are kept. -/
theorem pack_mask_key12 : pack f7 rs2 rs1 f3 rd op &&& 0xFFF0707F#32 = pack f7 rs2 0 f3 0 op := by
  have h := pack_and f7 (BitVec.allOnes 7) rs2 (BitVec.allOnes 5) rs1 0 f3 (BitVec.allOnes 3) rd 0 op (BitVec.allOnes 7)
  rw [show pack (BitVec.allOnes 7) (BitVec.allOnes 5) 0 (BitVec.allOnes 3) 0 (BitVec.allOnes 7) = 0xFFF0707F#32 by decide] at h
  simpa only [BitVec.and_allOnes, BitVec.ofNat_eq_ofNat, BitVec.and_zero] using h

end

/-! ## A word masked as a row of the table says: which fields it must agree on -/

theorem word_mask_key3 (w : Word) : w &&& 0xFE00707F#32 = pack (fieldFunct7 w) 0 0 (fieldFunct3 w) 0 (fieldOpcode w) := by
  rw [← pack_mask_key3 (fieldFunct7 w) (fieldRs2 w) (fieldRs1 w) (fieldFunct3 w) (fieldRd w), pack_fields]

theorem word_mask_key2 (w : Word) : w &&& 0x0000707F#32 = pack 0 0 0 (fieldFunct3 w) 0 (fieldOpcode w) := by
  rw [← pack_mask_key2 (fieldFunct7 w) (fieldRs2 w) (fieldRs1 w) (fieldFunct3 w) (fieldRd w), pack_fields]

theorem word_mask_key1 (w : Word) : w &&& 0x0000007F#32 = pack 0 0 0 0 0 (fieldOpcode w) := by
  rw [← pack_mask_key1 (fieldFunct7 w) (fieldRs2 w) (fieldRs1 w) (fieldFunct3 w) (fieldRd w), pack_fields]

theorem word_mask_key12 (w : Word) :
    w &&& 0xFFF0707F#32 = pack (fieldFunct7 w) (fieldRs2 w) 0 (fieldFunct3 w) 0 (fieldOpcode w) := by
  rw [← pack_mask_key12 (fieldFunct7 w) (fieldRs2 w) (fieldRs1 w) (fieldFunct3 w) (fieldRd w), pack_fields]

/-- Rows keyed by opcode, funct3 and funct7. -/
theorem mask_key3_iff {w m : Word} (hm : m &&& 0xFE00707F#32 = m) :
    w &&& 0xFE00707F#32 = m ↔
      fieldOpcode w = fieldOpcode m ∧ fieldFunct3 w = fieldFunct3 m ∧ fieldFunct7 w = fieldFunct7 m := by
  rw [word_mask_key3] at *
  constructor
  · rintro rfl; simp
  · rintro ⟨ho, h3, h7⟩; rw [ho, h3, h7, hm]

/-- Rows keyed by opcode and funct3. -/
theorem mask_key2_iff {w m : Word} (hm : m &&& 0x0000707F#32 = m) :
    w &&& 0x0000707F#32 = m ↔ fieldOpcode w = fieldOpcode m ∧ fieldFunct3 w = fieldFunct3 m := by
  rw [word_mask_key2] at *
  constructor
  · rintro rfl; simp
  · rintro ⟨ho, h3⟩; rw [ho, h3, hm]

/-- Rows keyed by the opcode alone. -/
theorem mask_key1_iff {w m : Word} (hm : m &&& 0x0000007F#32 = m) :
    w &&& 0x0000007F#32 = m ↔ fieldOpcode w = fieldOpcode m := by
  rw [word_mask_key1] at *
  constructor
  · rintro rfl; simp
  · intro ho; rw [ho, hm]

/-- Rows keyed by opcode, funct3 and funct12. -/
theorem mask_key12_iff {w m : Word} (hm : m &&& 0xFFF0707F#32 = m) :
    w &&& 0xFFF0707F#32 = m ↔
      fieldOpcode w = fieldOpcode m ∧ fieldFunct3 w = fieldFunct3 m ∧ field31_20 w = field31_20 m := by
  have split12 (z : Word) : field31_20 z = fieldFunct7 z ++ fieldRs2 z := by
    rw [← field31_20_pack (fieldFunct7 z) (fieldRs2 z) (fieldRs1 z) (fieldFunct3 z) (fieldRd z) (fieldOpcode z), pack_fields]
  rw [split12 w, split12 m]
  rw [word_mask_key12] at *
  constructor
  · rintro rfl; simp
  · rintro ⟨ho, h3, h12⟩
    have h := congrArg BitVec.toNat h12
    rw [toNat_append, toNat_append] at h
    have h7 : fieldFunct7 w = fieldFunct7 m := BitVec.eq_of_toNat_eq (by omega)
    have hr : fieldRs2 w = fieldRs2 m := BitVec.eq_of_toNat_eq (by omega)
    rw [ho, h3, h7, hr, hm]

end Sys2Proof
end

