-- ==== Sys2Proof/Laws/State.lean ====
section
/-! SUPPORT. One lemma per field per update of the state, and what each shared operation does. -/

namespace Sys2Proof.Machine

/-! ## The word presented next -/

theorem nextWord_nil {s : State} (h : s.upcoming = []) : s.nextWord = s.instr_i := by
  simp [State.nextWord, h]

theorem nextWord_cons {s : State} {w : Word} {ws : List Word} (h : s.upcoming = w :: ws) : s.nextWord = w := by
  simp [State.nextWord, h]

/-! ## present -/

@[simp] theorem present_regNames (s : State) : (present s).regNames = s.regNames := rfl
@[simp] theorem present_instr_i (s : State) : (present s).instr_i = s.nextWord := rfl
@[simp] theorem present_ext (s : State) : (present s).ext = extract s.nextWord := rfl
@[simp] theorem present_res (s : State) : (present s).res = s.res := rfl
@[simp] theorem present_upcoming (s : State) : (present s).upcoming = s.upcoming.tail := rfl
@[simp] theorem present_results (s : State) : (present s).results = s.results := rfl

/-! ## queueWord -/

@[simp] theorem queueWord_regNames (w : Word) (s : State) : (queueWord w s).regNames = s.regNames := rfl
@[simp] theorem queueWord_instr_i (w : Word) (s : State) : (queueWord w s).instr_i = s.instr_i := rfl
@[simp] theorem queueWord_ext (w : Word) (s : State) : (queueWord w s).ext = s.ext := rfl
@[simp] theorem queueWord_res (w : Word) (s : State) : (queueWord w s).res = s.res := rfl
@[simp] theorem queueWord_upcoming (w : Word) (s : State) : (queueWord w s).upcoming = w :: s.upcoming := rfl
@[simp] theorem queueWord_results (w : Word) (s : State) : (queueWord w s).results = s.results := rfl
@[simp] theorem queueWord_nextWord (w : Word) (s : State) : (queueWord w s).nextWord = w := rfl

/-! ## deliver: everything the end of a decode can do -/

theorem deliver_next {r : Result} {s t : State} :
    deliver r s = .next t ↔ t = { s with res := resolverPorts r, results := s.results ++ [r] } := by
  simp [deliver, eq_comm]

theorem deliver_eq (r : Result) (s : State) :
    deliver r s = .next { s with res := resolverPorts r, results := s.results ++ [r] } := rfl

theorem raiseError_eq (e : DecodeError) (s : State) :
    raiseError e s = .next { s with res := errorPorts e, results := s.results ++ [.error e] } := rfl

/-! ## step: the two things it can do -/

theorem step_of_ok {s : State} {i : Instr} (h : decode s.nextWord = .ok i) : step s = exec i (present s) := by
  simp [step, h]

theorem step_of_error {s : State} {e : DecodeError} (h : decode s.nextWord = .error e) :
    step s = raiseError e (present s) := by
  simp [step, h]

end Sys2Proof.Machine
end

