-- ==== Sys2Proof/Laws/Operands.lean ====
section
/-! SUPPORT. The register check: both Register Name tables are complete (spec/10_state.md R25), so the check passes and
`emit` always delivers its Decoded Instruction. -/

namespace Sys2Proof

theorem numericNames_length : numericNames.length = 32 := by decide
theorem abiNames_length : abiNames.length = 32 := by decide

theorem regNameTable_length (conv : RegNames) : (regNameTable conv).length = 32 := by
  cases conv
  · exact numericNames_length
  · exact abiNames_length

theorem regName_ne_none (conv : RegNames) (i : RegIdx) : regName conv i ≠ none := by
  have hi := i.isLt
  have hl := regNameTable_length conv
  simp only [regName, ne_eq, List.getElem?_eq_none_iff]
  omega

/-- Everything the search can answer: nothing, where each register is named; else the first that is not. -/
theorem firstUnnamed_eq_none {nameOf : RegIdx → Option String} {regs : List (Field × RegIdx)} :
    firstUnnamed nameOf regs = none ↔ ∀ p ∈ regs, nameOf p.2 ≠ none := by
  induction regs with
  | nil => simp [firstUnnamed]
  | cons p rest ih =>
    obtain ⟨f, i⟩ := p
    cases h : nameOf i <;> simp [firstUnnamed, h, ih]

theorem firstUnnamed_append {nameOf : RegIdx → Option String} {before after : List (Field × RegIdx)} {f : Field}
    {i : RegIdx} (hb : ∀ p ∈ before, nameOf p.2 ≠ none) (hi : nameOf i = none) :
    firstUnnamed nameOf (before ++ (f, i) :: after) = some (f, i) := by
  induction before with
  | nil => simp [firstUnnamed, hi]
  | cons p rest ih =>
    obtain ⟨f', i'⟩ := p
    obtain ⟨n, hn⟩ := Option.ne_none_iff_exists'.1 (hb (f', i') List.mem_cons_self)
    simp [firstUnnamed, hn, ih fun p hp => hb p (List.mem_cons_of_mem _ hp)]

theorem checkRegisters_eq (conv : RegNames) (d : Decoded) : checkRegisters conv d = .decoded d := by
  have h : ∀ regs, firstUnnamed (regName conv) regs = none :=
    fun regs => firstUnnamed_eq_none.2 fun p _ => regName_ne_none conv p.2
  simp [checkRegisters, checkRegistersIn, h]

theorem Machine.emit_eq (m : Mnemonic) (fmt : Format) (ops : List Operand) (s : Machine.State) :
    Machine.emit m fmt ops s =
      .next { s with res := decodedPorts ⟨m, fmt, ops⟩, results := s.results ++ [.decoded ⟨m, fmt, ops⟩] } := by
  simp [Machine.emit, checkRegisters_eq, Machine.deliver, resolverPorts]

end Sys2Proof
end

