-- ==== Sys2Proof/Laws/PerInstr.lean ====
section
/-! SUPPORT. Statements about every instruction as syntax, one lemma per constructor. The family `OpcodeRow`: the word of a
well-formed instruction lies in its own row of spec/opcode_table.json. -/

namespace Sys2Proof.Laws.OpcodeRow

/-- The encoder's word of a well-formed instruction has the row's fixed bits (spec/opcode_table.json). -/
def Statement (i : Instr) : Prop :=
  i.wellFormed = true → encode i &&& i.mnemonic.maskWord = i.mnemonic.matchWord

theorem add (rd rs1 rs2 : RegIdx) : Statement (.add rd rs1 rs2) := by
  intro _
  simp only [encode, encodeR, Instr.mnemonic, Mnemonic.maskWord, pack_mask_key3]
  decide

theorem sub (rd rs1 rs2 : RegIdx) : Statement (.sub rd rs1 rs2) := by
  intro _
  simp only [encode, encodeR, Instr.mnemonic, Mnemonic.maskWord, pack_mask_key3]
  decide

theorem sll (rd rs1 rs2 : RegIdx) : Statement (.sll rd rs1 rs2) := by
  intro _
  simp only [encode, encodeR, Instr.mnemonic, Mnemonic.maskWord, pack_mask_key3]
  decide

theorem slt (rd rs1 rs2 : RegIdx) : Statement (.slt rd rs1 rs2) := by
  intro _
  simp only [encode, encodeR, Instr.mnemonic, Mnemonic.maskWord, pack_mask_key3]
  decide

theorem sltu (rd rs1 rs2 : RegIdx) : Statement (.sltu rd rs1 rs2) := by
  intro _
  simp only [encode, encodeR, Instr.mnemonic, Mnemonic.maskWord, pack_mask_key3]
  decide

theorem xor (rd rs1 rs2 : RegIdx) : Statement (.xor rd rs1 rs2) := by
  intro _
  simp only [encode, encodeR, Instr.mnemonic, Mnemonic.maskWord, pack_mask_key3]
  decide

theorem srl (rd rs1 rs2 : RegIdx) : Statement (.srl rd rs1 rs2) := by
  intro _
  simp only [encode, encodeR, Instr.mnemonic, Mnemonic.maskWord, pack_mask_key3]
  decide

theorem sra (rd rs1 rs2 : RegIdx) : Statement (.sra rd rs1 rs2) := by
  intro _
  simp only [encode, encodeR, Instr.mnemonic, Mnemonic.maskWord, pack_mask_key3]
  decide

theorem or (rd rs1 rs2 : RegIdx) : Statement (.or rd rs1 rs2) := by
  intro _
  simp only [encode, encodeR, Instr.mnemonic, Mnemonic.maskWord, pack_mask_key3]
  decide

theorem and (rd rs1 rs2 : RegIdx) : Statement (.and rd rs1 rs2) := by
  intro _
  simp only [encode, encodeR, Instr.mnemonic, Mnemonic.maskWord, pack_mask_key3]
  decide

theorem addi (rd rs1 : RegIdx) (imm : Imm12) : Statement (.addi rd rs1 imm) := by
  intro _
  simp only [encode, encodeI, Instr.mnemonic, Mnemonic.maskWord, pack_mask_key2]
  decide

theorem slti (rd rs1 : RegIdx) (imm : Imm12) : Statement (.slti rd rs1 imm) := by
  intro _
  simp only [encode, encodeI, Instr.mnemonic, Mnemonic.maskWord, pack_mask_key2]
  decide

theorem sltiu (rd rs1 : RegIdx) (imm : Imm12) : Statement (.sltiu rd rs1 imm) := by
  intro _
  simp only [encode, encodeI, Instr.mnemonic, Mnemonic.maskWord, pack_mask_key2]
  decide

theorem xori (rd rs1 : RegIdx) (imm : Imm12) : Statement (.xori rd rs1 imm) := by
  intro _
  simp only [encode, encodeI, Instr.mnemonic, Mnemonic.maskWord, pack_mask_key2]
  decide

theorem ori (rd rs1 : RegIdx) (imm : Imm12) : Statement (.ori rd rs1 imm) := by
  intro _
  simp only [encode, encodeI, Instr.mnemonic, Mnemonic.maskWord, pack_mask_key2]
  decide

theorem andi (rd rs1 : RegIdx) (imm : Imm12) : Statement (.andi rd rs1 imm) := by
  intro _
  simp only [encode, encodeI, Instr.mnemonic, Mnemonic.maskWord, pack_mask_key2]
  decide

theorem slli (rd rs1 : RegIdx) (imm : Imm12) : Statement (.slli rd rs1 imm) := by
  intro h
  have h7 := eq_of_beq h
  simp only [encode, encodeI, Instr.mnemonic, Mnemonic.maskWord, pack_mask_key3, h7]
  decide

theorem srli (rd rs1 : RegIdx) (imm : Imm12) : Statement (.srli rd rs1 imm) := by
  intro h
  have h7 := eq_of_beq h
  simp only [encode, encodeI, Instr.mnemonic, Mnemonic.maskWord, pack_mask_key3, h7]
  decide

theorem srai (rd rs1 : RegIdx) (imm : Imm12) : Statement (.srai rd rs1 imm) := by
  intro h
  have h7 := eq_of_beq h
  simp only [encode, encodeI, Instr.mnemonic, Mnemonic.maskWord, pack_mask_key3, h7]
  decide

theorem jalr (rd rs1 : RegIdx) (imm : Imm12) : Statement (.jalr rd rs1 imm) := by
  intro _
  simp only [encode, encodeI, Instr.mnemonic, Mnemonic.maskWord, pack_mask_key2]
  decide

theorem lb (rd : RegIdx) (imm : Imm12) (rs1 : RegIdx) : Statement (.lb rd imm rs1) := by
  intro _
  simp only [encode, encodeI, Instr.mnemonic, Mnemonic.maskWord, pack_mask_key2]
  decide

theorem lh (rd : RegIdx) (imm : Imm12) (rs1 : RegIdx) : Statement (.lh rd imm rs1) := by
  intro _
  simp only [encode, encodeI, Instr.mnemonic, Mnemonic.maskWord, pack_mask_key2]
  decide

theorem lw (rd : RegIdx) (imm : Imm12) (rs1 : RegIdx) : Statement (.lw rd imm rs1) := by
  intro _
  simp only [encode, encodeI, Instr.mnemonic, Mnemonic.maskWord, pack_mask_key2]
  decide

theorem lbu (rd : RegIdx) (imm : Imm12) (rs1 : RegIdx) : Statement (.lbu rd imm rs1) := by
  intro _
  simp only [encode, encodeI, Instr.mnemonic, Mnemonic.maskWord, pack_mask_key2]
  decide

theorem lhu (rd : RegIdx) (imm : Imm12) (rs1 : RegIdx) : Statement (.lhu rd imm rs1) := by
  intro _
  simp only [encode, encodeI, Instr.mnemonic, Mnemonic.maskWord, pack_mask_key2]
  decide

theorem sb (rs2 : RegIdx) (imm : Imm12) (rs1 : RegIdx) : Statement (.sb rs2 imm rs1) := by
  intro _
  simp only [encode, encodeS, Instr.mnemonic, Mnemonic.maskWord, pack_mask_key2]
  decide

theorem sh (rs2 : RegIdx) (imm : Imm12) (rs1 : RegIdx) : Statement (.sh rs2 imm rs1) := by
  intro _
  simp only [encode, encodeS, Instr.mnemonic, Mnemonic.maskWord, pack_mask_key2]
  decide

theorem sw (rs2 : RegIdx) (imm : Imm12) (rs1 : RegIdx) : Statement (.sw rs2 imm rs1) := by
  intro _
  simp only [encode, encodeS, Instr.mnemonic, Mnemonic.maskWord, pack_mask_key2]
  decide

theorem beq (rs1 rs2 : RegIdx) (imm : Imm12) : Statement (.beq rs1 rs2 imm) := by
  intro _
  simp only [encode, encodeSB, Instr.mnemonic, Mnemonic.maskWord, pack_mask_key2]
  decide

theorem bne (rs1 rs2 : RegIdx) (imm : Imm12) : Statement (.bne rs1 rs2 imm) := by
  intro _
  simp only [encode, encodeSB, Instr.mnemonic, Mnemonic.maskWord, pack_mask_key2]
  decide

theorem blt (rs1 rs2 : RegIdx) (imm : Imm12) : Statement (.blt rs1 rs2 imm) := by
  intro _
  simp only [encode, encodeSB, Instr.mnemonic, Mnemonic.maskWord, pack_mask_key2]
  decide

theorem bge (rs1 rs2 : RegIdx) (imm : Imm12) : Statement (.bge rs1 rs2 imm) := by
  intro _
  simp only [encode, encodeSB, Instr.mnemonic, Mnemonic.maskWord, pack_mask_key2]
  decide

theorem bltu (rs1 rs2 : RegIdx) (imm : Imm12) : Statement (.bltu rs1 rs2 imm) := by
  intro _
  simp only [encode, encodeSB, Instr.mnemonic, Mnemonic.maskWord, pack_mask_key2]
  decide

theorem bgeu (rs1 rs2 : RegIdx) (imm : Imm12) : Statement (.bgeu rs1 rs2 imm) := by
  intro _
  simp only [encode, encodeSB, Instr.mnemonic, Mnemonic.maskWord, pack_mask_key2]
  decide

theorem auipc (rd : RegIdx) (imm : Imm20) : Statement (.auipc rd imm) := by
  intro _
  simp only [encode, encodeU, Instr.mnemonic, Mnemonic.maskWord, pack_mask_key1]
  decide

theorem lui (rd : RegIdx) (imm : Imm20) : Statement (.lui rd imm) := by
  intro _
  simp only [encode, encodeU, Instr.mnemonic, Mnemonic.maskWord, pack_mask_key1]
  decide

theorem jal (rd : RegIdx) (imm : Imm20) : Statement (.jal rd imm) := by
  intro _
  simp only [encode, encodeUJ, Instr.mnemonic, Mnemonic.maskWord, pack_mask_key1]
  decide

theorem csrrw (rd : RegIdx) (csr : CsrNum) (rs1 : RegIdx) : Statement (.csrrw rd csr rs1) := by
  intro _
  simp only [encode, encodeI, Instr.mnemonic, Mnemonic.maskWord, pack_mask_key2]
  decide

theorem csrrs (rd : RegIdx) (csr : CsrNum) (rs1 : RegIdx) : Statement (.csrrs rd csr rs1) := by
  intro _
  simp only [encode, encodeI, Instr.mnemonic, Mnemonic.maskWord, pack_mask_key2]
  decide

theorem csrrc (rd : RegIdx) (csr : CsrNum) (rs1 : RegIdx) : Statement (.csrrc rd csr rs1) := by
  intro _
  simp only [encode, encodeI, Instr.mnemonic, Mnemonic.maskWord, pack_mask_key2]
  decide

theorem csrrwi (rd : RegIdx) (csr : CsrNum) (rs1 : RegIdx) : Statement (.csrrwi rd csr rs1) := by
  intro _
  simp only [encode, encodeI, Instr.mnemonic, Mnemonic.maskWord, pack_mask_key2]
  decide

theorem csrrsi (rd : RegIdx) (csr : CsrNum) (rs1 : RegIdx) : Statement (.csrrsi rd csr rs1) := by
  intro _
  simp only [encode, encodeI, Instr.mnemonic, Mnemonic.maskWord, pack_mask_key2]
  decide

theorem csrrci (rd : RegIdx) (csr : CsrNum) (rs1 : RegIdx) : Statement (.csrrci rd csr rs1) := by
  intro _
  simp only [encode, encodeI, Instr.mnemonic, Mnemonic.maskWord, pack_mask_key2]
  decide

theorem ecall (rd : RegIdx) (csr : CsrNum) (rs1 : RegIdx) : Statement (.ecall rd csr rs1) := by
  intro h
  have hc : csr = 0#12 := eq_of_beq h
  subst hc
  simp only [encode, encodeI, Instr.mnemonic, Mnemonic.maskWord, pack_mask_key12]
  decide

theorem ebreak (rd : RegIdx) (csr : CsrNum) (rs1 : RegIdx) : Statement (.ebreak rd csr rs1) := by
  intro h
  have hc : csr = 1#12 := eq_of_beq h
  subst hc
  simp only [encode, encodeI, Instr.mnemonic, Mnemonic.maskWord, pack_mask_key12]
  decide

end Sys2Proof.Laws.OpcodeRow
end

