-- ==== Sys2Proof/Laws/Walk.lean ====
section
/-! SUPPORT. What the trie walk can answer, said once: an inversion of every successful walk, the format each mnemonic is
found with, and the whole decode of a word in terms of the walk. -/

namespace Sys2Proof

theorem lookup_mem {κ α : Type} [DecidableEq κ] {t : List (κ × α)} {k : κ} {a : α} (h : lookup t k = some a) :
    (k, a) ∈ t := by
  induction t with
  | nil => simp [lookup] at h
  | cons p rest ih =>
    obtain ⟨k', a'⟩ := p
    simp only [lookup] at h
    split at h
    · simp_all
    · exact List.mem_cons_of_mem _ (ih h)

/-- The format each mnemonic's row of spec/opcode_table.json gives. -/
def Mnemonic.format : Mnemonic → Format
  | .add | .sub | .sll | .slt | .sltu | .xor | .srl | .sra | .or | .and => .r
  | .addi | .slti | .sltiu | .xori | .ori | .andi | .slli | .srli | .srai | .jalr => .i
  | .lb | .lh | .lw | .lbu | .lhu => .iLoad
  | .sb | .sh | .sw => .s
  | .beq | .bne | .blt | .bge | .bltu | .bgeu => .sb
  | .auipc => .uPCRelative
  | .lui => .uAbsolute
  | .jal => .uj
  | .csrrw | .csrrs | .csrrc | .csrrwi | .csrrsi | .csrrci | .ecall | .ebreak => .csr

/-- Whether the four key fields are those of a mnemonic's row. -/
def Mnemonic.keysMatch (m : Mnemonic) (op : Opcode) (f3 : Funct3) (f7 : Funct7) (f12 : Funct12) : Prop :=
  op = fieldOpcode m.matchWord ∧
    match m with
    | .auipc | .lui | .jal => True
    | .ecall | .ebreak => f3 = fieldFunct3 m.matchWord ∧ f12 = field31_20 m.matchWord
    | .add | .sub | .sll | .slt | .sltu | .xor | .srl | .sra | .or | .and | .slli | .srli | .srai =>
      f3 = fieldFunct3 m.matchWord ∧ f7 = fieldFunct7 m.matchWord
    | .addi | .slti | .sltiu | .xori | .ori | .andi | .jalr | .lb | .lh | .lw | .lbu | .lhu | .sb | .sh | .sw
    | .beq | .bne | .blt | .bge | .bltu | .bgeu | .csrrw | .csrrs | .csrrc | .csrrwi | .csrrsi | .csrrci =>
      f3 = fieldFunct3 m.matchWord

theorem walk_of_keysMatch {m : Mnemonic} {op : Opcode} {f3 : Funct3} {f7 : Funct7} {f12 : Funct12}
    (h : m.keysMatch op f3 f7 f12) : walk op f3 f7 f12 = .ok (m, m.format) := by
  cases m <;> obtain ⟨rfl, h⟩ := h <;> obtain ⟨rfl, rfl⟩ := h <;> rfl

theorem walkFunct3Entry_inv {m : Mnemonic} {f7 : Funct7} {f12 : Funct12} {e : Funct3Entry}
    (h : walkFunct3Entry f7 f12 e = .ok m) :
    e = .leaf m ∨ (∃ t, e = .byFunct7 t ∧ (f7, m) ∈ t) ∨ ∃ t, e = .byFunct12 t ∧ (f12, m) ∈ t := by
  cases e with
  | leaf m' => cases h; exact .inl rfl
  | byFunct7 t =>
    simp only [walkFunct3Entry] at h
    split at h
    · cases h
    · cases h; exact .inr (.inl ⟨t, rfl, lookup_mem ‹_›⟩)
  | byFunct12 t =>
    simp only [walkFunct3Entry] at h
    split at h
    · cases h
    · cases h; exact .inr (.inr ⟨t, rfl, lookup_mem ‹_›⟩)

theorem walkOpcodeEntry_inv {m : Mnemonic} {f3 : Funct3} {f7 : Funct7} {f12 : Funct12} {e : OpcodeEntry}
    (h : walkOpcodeEntry f3 f7 f12 e = .ok m) :
    e = .leaf m ∨ ∃ t e3, e = .byFunct3 t ∧ (f3, e3) ∈ t ∧ walkFunct3Entry f7 f12 e3 = .ok m := by
  cases e with
  | leaf m' => cases h; exact .inl rfl
  | byFunct3 t =>
    simp only [walkOpcodeEntry] at h
    split at h
    · cases h
    · exact .inr ⟨t, _, rfl, lookup_mem ‹_›, h⟩

theorem walk_inv {m : Mnemonic} {fmt : Format} {op : Opcode} {f3 : Funct3} {f7 : Funct7} {f12 : Funct12}
    (h : walk op f3 f7 f12 = .ok (m, fmt)) :
    ∃ e, (op, e) ∈ mnemonicTable ∧ walkOpcodeEntry f3 f7 f12 e = .ok m := by
  unfold walk at h
  split at h
  · cases h
  · split at h
    · cases h
    · split at h
      · cases h
      · cases h; exact ⟨_, lookup_mem ‹_›, ‹_›⟩

/-- Below an opcode with funct3 entries, a successful walk is at one of the entries listed for it. -/
theorem walk_trie {m : Mnemonic} {f3 : Funct3} {f7 : Funct7} {f12 : Funct12} {t : List (Funct3 × Funct3Entry)}
    (h : walkOpcodeEntry f3 f7 f12 (.byFunct3 t) = .ok m) :
    ∃ e3, (f3, e3) ∈ t ∧
      (e3 = .leaf m ∨ (∃ t7, e3 = .byFunct7 t7 ∧ (f7, m) ∈ t7) ∨ ∃ t12, e3 = .byFunct12 t12 ∧ (f12, m) ∈ t12) := by
  rcases walkOpcodeEntry_inv h with h | ⟨t', e3, ht, hmem, hw⟩
  · cases h
  · cases ht; exact ⟨e3, hmem, walkFunct3Entry_inv hw⟩

/-- Under each entry of the Mnemonic Table, a walk that resolves a mnemonic is at the row of that mnemonic. -/
theorem keysMatch_of_entry {m : Mnemonic} {f3 : Funct3} {f7 : Funct7} {f12 : Funct12} :
    ∀ p ∈ mnemonicTable, walkOpcodeEntry f3 f7 f12 p.2 = .ok m → m.keysMatch p.1 f3 f7 f12 := by
  simp only [mnemonicTable, List.forall_mem_cons, List.not_mem_nil, false_implies, implies_true, and_true]
  repeat' apply And.intro
  all_goals
    intro hw
    first
      | (cases hw; exact ⟨rfl, trivial⟩)
      | (obtain ⟨e3, h3, h7⟩ := walk_trie hw
         simp only [trieOp, trieOpImm, trieJalr, trieLoad, trieStore, trieBranch, trieSystem, List.mem_cons,
           List.not_mem_nil, or_false, Prod.mk.injEq] at h3
         repeat' refine Or.elim h3 (fun h3 => ?_) (fun h3 => ?_)
         all_goals
           obtain ⟨rfl, rfl⟩ := h3
           simp only [Funct3Entry.leaf.injEq, Funct3Entry.byFunct7.injEq, Funct3Entry.byFunct12.injEq, reduceCtorEq,
             false_and, exists_const, exists_eq_left', or_false, false_or, List.mem_cons, List.not_mem_nil,
             Prod.mk.injEq] at h7
         all_goals first
           | (subst h7; exact ⟨rfl, rfl⟩)
           | (refine Or.elim h7 ?_ ?_ <;> (rintro ⟨rfl, rfl⟩; exact ⟨rfl, rfl, rfl⟩))
           | (obtain ⟨rfl, rfl⟩ := h7; exact ⟨rfl, rfl, rfl⟩))

/-- A successful walk is at the row of its mnemonic. -/
theorem keysMatch_of_walk {m : Mnemonic} {fmt : Format} {op : Opcode} {f3 : Funct3} {f7 : Funct7} {f12 : Funct12}
    (h : walk op f3 f7 f12 = .ok (m, fmt)) : m.keysMatch op f3 f7 f12 := by
  obtain ⟨e, hmem, hw⟩ := walk_inv h
  exact keysMatch_of_entry (op, e) hmem hw

theorem walk_ok_iff {m : Mnemonic} {fmt : Format} {op : Opcode} {f3 : Funct3} {f7 : Funct7} {f12 : Funct12} :
    walk op f3 f7 f12 = .ok (m, fmt) ↔ fmt = m.format ∧ m.keysMatch op f3 f7 f12 := by
  constructor
  · intro h
    have hk := keysMatch_of_walk h
    rw [walk_of_keysMatch hk] at h
    injection h with h
    injection h with _ h
    exact ⟨h.symm, hk⟩
  · rintro ⟨rfl, hk⟩
    exact walk_of_keysMatch hk

theorem decodeWord_of_error {conv : RegNames} {w : Word} {e : DecodeError} (h : walkWord w = .error e) :
    decodeWord conv w = .error e := by
  simp [decodeWord, h]

theorem decodeWord_of_ok {conv : RegNames} {w : Word} {m : Mnemonic} {fmt : Format} (h : walkWord w = .ok (m, fmt)) :
    decodeWord conv w = .decoded ⟨m, fmt, template w fmt⟩ := by
  simp [decodeWord, h, checkRegisters_eq]

theorem decode_of_error {w : Word} {e : DecodeError} (h : walkWord w = .error e) : decode w = .error e := by
  simp [decode, h]

theorem decode_of_ok {w : Word} {m : Mnemonic} {fmt : Format} (h : walkWord w = .ok (m, fmt)) :
    decode w = .ok (instrOf w m) := by
  simp [decode, h]

theorem mnemonic_instrOf (w : Word) (m : Mnemonic) : (instrOf w m).mnemonic = m := by
  cases m <;> rfl

end Sys2Proof
end

