-- ==== Sys2Proof/Laws/Slices.lean ====
section
/-! SUPPORT. The decoder's fields and immediates in the terms of the claims (`Spec.slice` and the place-value sums), the
meaning of the instruction a word carries, and one step of a run. -/

namespace Sys2Proof

theorem toNat_extract (w : Word) (hi lo len : Nat) (h : hi + 1 = lo + len) (hp : 0 < len) :
    (w.extractLsb' lo len).toNat = Spec.slice w hi lo := by
  rw [toNat_slice, Spec.slice]
  congr 2
  omega

theorem toNat_fieldOpcode (w : Word) : (fieldOpcode w).toNat = Spec.slice w 6 0 := toNat_extract w 6 0 7 rfl (by decide)
theorem toNat_fieldFunct3 (w : Word) : (fieldFunct3 w).toNat = Spec.slice w 14 12 := toNat_extract w 14 12 3 rfl (by decide)
theorem toNat_fieldFunct7 (w : Word) : (fieldFunct7 w).toNat = Spec.slice w 31 25 := toNat_extract w 31 25 7 rfl (by decide)
theorem toNat_field31_20 (w : Word) : (field31_20 w).toNat = Spec.slice w 31 20 := toNat_extract w 31 20 12 rfl (by decide)
theorem toNat_fieldRd (w : Word) : (fieldRd w).toNat = Spec.slice w 11 7 := toNat_extract w 11 7 5 rfl (by decide)
theorem toNat_fieldRs1 (w : Word) : (fieldRs1 w).toNat = Spec.slice w 19 15 := toNat_extract w 19 15 5 rfl (by decide)
theorem toNat_fieldRs2 (w : Word) : (fieldRs2 w).toNat = Spec.slice w 24 20 := toNat_extract w 24 20 5 rfl (by decide)
theorem toNat_field31_25 (w : Word) : (field31_25 w).toNat = Spec.slice w 31 25 := toNat_extract w 31 25 7 rfl (by decide)
theorem toNat_field11_7 (w : Word) : (field11_7 w).toNat = Spec.slice w 11 7 := toNat_extract w 11 7 5 rfl (by decide)
theorem toNat_field31 (w : Word) : (field31 w).toNat = Spec.slice w 31 31 := toNat_extract w 31 31 1 rfl (by decide)
theorem toNat_field7 (w : Word) : (field7 w).toNat = Spec.slice w 7 7 := toNat_extract w 7 7 1 rfl (by decide)
theorem toNat_field30_25 (w : Word) : (field30_25 w).toNat = Spec.slice w 30 25 := toNat_extract w 30 25 6 rfl (by decide)
theorem toNat_field11_8 (w : Word) : (field11_8 w).toNat = Spec.slice w 11 8 := toNat_extract w 11 8 4 rfl (by decide)
theorem toNat_field31_12 (w : Word) : (field31_12 w).toNat = Spec.slice w 31 12 := toNat_extract w 31 12 20 rfl (by decide)
theorem toNat_field19_12 (w : Word) : (field19_12 w).toNat = Spec.slice w 19 12 := toNat_extract w 19 12 8 rfl (by decide)
theorem toNat_field20 (w : Word) : (field20 w).toNat = Spec.slice w 20 20 := toNat_extract w 20 20 1 rfl (by decide)
theorem toNat_field30_21 (w : Word) : (field30_21 w).toNat = Spec.slice w 30 21 := toNat_extract w 30 21 10 rfl (by decide)

theorem spec_rd (w : Word) : Spec.rd w = fieldRd w := by rw [Spec.rd, ← toNat_fieldRd]; simp
theorem spec_rs1 (w : Word) : Spec.rs1 w = fieldRs1 w := by rw [Spec.rs1, ← toNat_fieldRs1]; simp
theorem spec_rs2 (w : Word) : Spec.rs2 w = fieldRs2 w := by rw [Spec.rs2, ← toNat_fieldRs2]; simp

theorem toNat_immI (w : Word) : (immI w).toNat = Spec.immI w := toNat_field31_20 w

theorem toNat_immS (w : Word) : (immS w).toNat = Spec.immS w := by
  rw [immS, toNat_append, toNat_field31_25, toNat_field11_7, Spec.immS]

theorem toNat_immSB (w : Word) : (immSB w).toNat = Spec.immSB w := by
  simp only [immSB, toNat_append, toNat_field31, toNat_field7, toNat_field30_25, toNat_field11_8, Spec.immSB]
  omega

theorem toNat_immU (w : Word) : (immU w).toNat = Spec.immU w := toNat_field31_12 w

theorem toNat_immUJ (w : Word) : (immUJ w).toNat = Spec.immUJ w := by
  simp only [immUJ, toNat_append, toNat_field31, toNat_field19_12, toNat_field20, toNat_field30_21, Spec.immUJ]
  omega

/-- The meaning of the instruction a word carries: its mnemonic, its format, the format's template. -/
theorem exec_instrOf (w : Word) (m : Mnemonic) (s : Machine.State) :
    Machine.exec (instrOf w m) s = Machine.emit m m.format (template w m.format) s := by
  cases m <;> rfl

/-- One more step of a run, where the step answers a state. -/
theorem run_succ_of_next {k : Nat} {s t : core.State} (h : core.step s = .next t) : core.run (k + 1) s = core.run k t := by
  simp only [Host.Core.run, h]

end Sys2Proof
end

