-- ==== Sys2Proof/Tests/Slice0.lean ====
section
/-! SUPPORT. The model's own tests. Every expected value is the spec's: the examples and corner cases of the family files
(spec/40 to 47), the vectors and programs of spec/95_test_vectors.md,
  and the bit layouts of spec/30_encoding.md R57. -/

namespace Sys2Proof.Tests

open Sys2Proof.Machine

/-! ## WellFormed: one ill-formed term for each check, which the check refuses -/

theorem test_wf_refuses_slli : (Instr.slli 5 6 0b000000100011#12).wellFormed = false := by decide
theorem test_wf_refuses_srli : (Instr.srli 5 6 0b010000000011#12).wellFormed = false := by decide
theorem test_wf_refuses_srai : (Instr.srai 5 6 0b000000000011#12).wellFormed = false := by decide
theorem test_wf_refuses_ecall : (Instr.ecall 0 1 0).wellFormed = false := by decide
theorem test_wf_refuses_ebreak : (Instr.ebreak 0 0 0).wellFormed = false := by decide
theorem test_wf_admits : (Instr.srai 5 6 0b010000000011#12).wellFormed = true ∧ (Instr.ebreak 3 1 4).wellFormed = true := by
  decide

/-! ## Decoding: each instruction's word written out field by field (R57, R61) -/

/-- R101: `0x003100B3` is `add x1,x2,x3`. -/
theorem test_decode_add :
    decode 0b0000000_00011_00010_000_00001_0110011#32 = .ok (.add 1 2 3) := by decide
/-- R102: `0x403100B3` is `sub x1,x2,x3`. -/
theorem test_decode_sub :
    decode 0b0100000_00011_00010_000_00001_0110011#32 = .ok (.sub 1 2 3) := by decide
/-- R103: `0x003110B3` is `sll x1,x2,x3`. -/
theorem test_decode_sll :
    decode 0b0000000_00011_00010_001_00001_0110011#32 = .ok (.sll 1 2 3) := by decide
/-- R104: `0x003120B3` is `slt x1,x2,x3`. -/
theorem test_decode_slt :
    decode 0b0000000_00011_00010_010_00001_0110011#32 = .ok (.slt 1 2 3) := by decide
/-- R105: `0x003130B3` is `sltu x1,x2,x3`. -/
theorem test_decode_sltu :
    decode 0b0000000_00011_00010_011_00001_0110011#32 = .ok (.sltu 1 2 3) := by decide
/-- R106: `0x003140B3` is `xor x1,x2,x3`. -/
theorem test_decode_xor :
    decode 0b0000000_00011_00010_100_00001_0110011#32 = .ok (.xor 1 2 3) := by decide
/-- R107: `0x003150B3` is `srl x1,x2,x3`. -/
theorem test_decode_srl :
    decode 0b0000000_00011_00010_101_00001_0110011#32 = .ok (.srl 1 2 3) := by decide
/-- R108: `0x403150B3` is `sra x1,x2,x3`. -/
theorem test_decode_sra :
    decode 0b0100000_00011_00010_101_00001_0110011#32 = .ok (.sra 1 2 3) := by decide
/-- R109: `0x003160B3` is `or x1,x2,x3`. -/
theorem test_decode_or :
    decode 0b0000000_00011_00010_110_00001_0110011#32 = .ok (.or 1 2 3) := by decide
/-- R110: `0x003170B3` is `and x1,x2,x3`. -/
theorem test_decode_and :
    decode 0b0000000_00011_00010_111_00001_0110011#32 = .ok (.and 1 2 3) := by decide
/-- R121: `0x00558513` is `addi x10,x11,5`. -/
theorem test_decode_addi :
    decode 0b000000000101_01011_000_01010_0010011#32 = .ok (.addi 10 11 5) := by decide
/-- R122: `0x0015A513` is `slti x10,x11,1`. -/
theorem test_decode_slti :
    decode 0b000000000001_01011_010_01010_0010011#32 = .ok (.slti 10 11 1) := by decide
/-- R123: `0x0015B513` is `sltiu x10,x11,1`. -/
theorem test_decode_sltiu :
    decode 0b000000000001_01011_011_01010_0010011#32 = .ok (.sltiu 10 11 1) := by decide
/-- R124: `0x8005C513` is `xori x10,x11,2048`. -/
theorem test_decode_xori :
    decode 0b100000000000_01011_100_01010_0010011#32 = .ok (.xori 10 11 2048) := by decide
/-- R125: `0x0FF5E513` is `ori x10,x11,255`. -/
theorem test_decode_ori :
    decode 0b000011111111_01011_110_01010_0010011#32 = .ok (.ori 10 11 255) := by decide
/-- R126: `0x00F5F513` is `andi x10,x11,15`. -/
theorem test_decode_andi :
    decode 0b000000001111_01011_111_01010_0010011#32 = .ok (.andi 10 11 15) := by decide
/-- R127: `0x00331293` is `slli x5,x6,3`. -/
theorem test_decode_slli :
    decode 0b000000000011_00110_001_00101_0010011#32 = .ok (.slli 5 6 3) := by decide
/-- R128: `0x01F35293` is `srli x5,x6,31`. -/
theorem test_decode_srli :
    decode 0b000000011111_00110_101_00101_0010011#32 = .ok (.srli 5 6 31) := by decide
/-- R129: `0x40435293` is `srai x5,x6,1028`. -/
theorem test_decode_srai :
    decode 0b010000000100_00110_101_00101_0010011#32 = .ok (.srai 5 6 1028) := by decide
/-- R130: `0x00008067` is `jalr x0,x1,0`. -/
theorem test_decode_jalr :
    decode 0b000000000000_00001_000_00000_1100111#32 = .ok (.jalr 0 1 0) := by decide
/-- R141: `0x00810503` is `lb x10,8(x2)`. -/
theorem test_decode_lb :
    decode 0b000000001000_00010_000_01010_0000011#32 = .ok (.lb 10 8 2) := by decide
/-- R142: `0x00811503` is `lh x10,8(x2)`. -/
theorem test_decode_lh :
    decode 0b000000001000_00010_001_01010_0000011#32 = .ok (.lh 10 8 2) := by decide
/-- R143: `0x00812503` is `lw x10,8(x2)`. -/
theorem test_decode_lw :
    decode 0b000000001000_00010_010_01010_0000011#32 = .ok (.lw 10 8 2) := by decide
/-- R144: `0x00814503` is `lbu x10,8(x2)`. -/
theorem test_decode_lbu :
    decode 0b000000001000_00010_100_01010_0000011#32 = .ok (.lbu 10 8 2) := by decide
/-- R145: `0x00815503` is `lhu x10,8(x2)`. -/
theorem test_decode_lhu :
    decode 0b000000001000_00010_101_01010_0000011#32 = .ok (.lhu 10 8 2) := by decide
/-- R151: `0x00A10623` is `sb x10,12(x2)`. -/
theorem test_decode_sb :
    decode 0b0000000_01010_00010_000_01100_0100011#32 = .ok (.sb 10 12 2) := by decide
/-- R152: `0x00A11623` is `sh x10,12(x2)`. -/
theorem test_decode_sh :
    decode 0b0000000_01010_00010_001_01100_0100011#32 = .ok (.sh 10 12 2) := by decide
/-- R153: `0x00A12623` is `sw x10,12(x2)`. -/
theorem test_decode_sw :
    decode 0b0000000_01010_00010_010_01100_0100011#32 = .ok (.sw 10 12 2) := by decide
/-- R161: `0x00B50863` is `beq x10,x11,8`. -/
theorem test_decode_beq :
    decode 0b0_000000_01011_01010_000_1000_0_1100011#32 = .ok (.beq 10 11 8) := by decide
/-- R162: `0x00B51863` is `bne x10,x11,8`. -/
theorem test_decode_bne :
    decode 0b0_000000_01011_01010_001_1000_0_1100011#32 = .ok (.bne 10 11 8) := by decide
/-- R163: `0x00B54863` is `blt x10,x11,8`. -/
theorem test_decode_blt :
    decode 0b0_000000_01011_01010_100_1000_0_1100011#32 = .ok (.blt 10 11 8) := by decide
/-- R164: `0x00B55863` is `bge x10,x11,8`. -/
theorem test_decode_bge :
    decode 0b0_000000_01011_01010_101_1000_0_1100011#32 = .ok (.bge 10 11 8) := by decide
/-- R165: `0x00B56863` is `bltu x10,x11,8`. -/
theorem test_decode_bltu :
    decode 0b0_000000_01011_01010_110_1000_0_1100011#32 = .ok (.bltu 10 11 8) := by decide
/-- R166: `0x00B57863` is `bgeu x10,x11,8`. -/
theorem test_decode_bgeu :
    decode 0b0_000000_01011_01010_111_1000_0_1100011#32 = .ok (.bgeu 10 11 8) := by decide
/-- R171: `0x00001297` is `auipc x5,1`. -/
theorem test_decode_auipc :
    decode 0b00000000000000000001_00101_0010111#32 = .ok (.auipc 5 1) := by decide
/-- R172: `0x003E8337` is `lui x6,1000`. -/
theorem test_decode_lui :
    decode 0b00000000001111101000_00110_0110111#32 = .ok (.lui 6 1000) := by decide
/-- R181: `0x001000EF` is `jal x1,1024`. -/
theorem test_decode_jal :
    decode 0b0_0000000000_1_00000000_00001_1101111#32 = .ok (.jal 1 1024) := by decide
/-- R191: `0x30029573` is `csrrw x10,768,x5`. -/
theorem test_decode_csrrw :
    decode 0b001100000000_00101_001_01010_1110011#32 = .ok (.csrrw 10 768 5) := by decide
/-- R192: `0x3002A573` is `csrrs x10,768,x5`. -/
theorem test_decode_csrrs :
    decode 0b001100000000_00101_010_01010_1110011#32 = .ok (.csrrs 10 768 5) := by decide
/-- R193: `0x3002B573` is `csrrc x10,768,x5`. -/
theorem test_decode_csrrc :
    decode 0b001100000000_00101_011_01010_1110011#32 = .ok (.csrrc 10 768 5) := by decide
/-- R194: `0x3002D573` is `csrrwi x10,768,x5`. -/
theorem test_decode_csrrwi :
    decode 0b001100000000_00101_101_01010_1110011#32 = .ok (.csrrwi 10 768 5) := by decide
/-- R195: `0x3002E573` is `csrrsi x10,768,x5`. -/
theorem test_decode_csrrsi :
    decode 0b001100000000_00101_110_01010_1110011#32 = .ok (.csrrsi 10 768 5) := by decide
/-- R196: `0x3002F573` is `csrrci x10,768,x5`. -/
theorem test_decode_csrrci :
    decode 0b001100000000_00101_111_01010_1110011#32 = .ok (.csrrci 10 768 5) := by decide
/-- R197: `0x00000073` is `ecall x0,0,x0`. -/
theorem test_decode_ecall :
    decode 0b000000000000_00000_000_00000_1110011#32 = .ok (.ecall 0 0 0) := by decide
/-- R198: `0x00100073` is `ebreak x0,1,x0`. -/
theorem test_decode_ebreak :
    decode 0b000000000001_00000_000_00000_1110011#32 = .ok (.ebreak 0 1 0) := by decide

/-! ## Texts: the corner cases each instruction's rule gives -/

/-- R101 -/
theorem test_text_add :
    [0x00000033#32, 0x01FF8FB3#32, 0x003100B3#32].map (wordText .numeric) =
    ["add x0,x0,x0", "add x31,x31,x31", "add x1,x2,x3"] := by decide
/-- R102 -/
theorem test_text_sub :
    [0x407282B3#32, 0x423100B3#32, 0x403100B3#32].map (wordText .numeric) =
    ["sub x5,x5,x7", "ERROR UnrecognizedFunct7(funct7=33)", "sub x1,x2,x3"] := by decide
/-- R103 -/
theorem test_text_sll :
    [0x403110B3#32, 0x003110B3#32].map (wordText .numeric) =
    ["ERROR UnrecognizedFunct7(funct7=32)", "sll x1,x2,x3"] := by decide
/-- R104 -/
theorem test_text_slt :
    [0x0020A033#32, 0x003120B3#32].map (wordText .numeric) =
    ["slt x0,x1,x2", "slt x1,x2,x3"] := by decide
/-- R105 -/
theorem test_text_sltu :
    [0x023130B3#32, 0x003130B3#32].map (wordText .numeric) =
    ["ERROR UnrecognizedFunct7(funct7=1)", "sltu x1,x2,x3"] := by decide
/-- R106 -/
theorem test_text_xor :
    [0x00004033#32, 0x003140B3#32].map (wordText .numeric) =
    ["xor x0,x0,x0", "xor x1,x2,x3"] := by decide
/-- R107 -/
theorem test_text_srl :
    [0x023150B3#32, 0x003150B3#32].map (wordText .numeric) =
    ["ERROR UnrecognizedFunct7(funct7=1)", "srl x1,x2,x3"] := by decide
/-- R108 -/
theorem test_text_sra :
    [0x4094D433#32, 0x403150B3#32].map (wordText .numeric) =
    ["sra x8,x9,x9", "sra x1,x2,x3"] := by decide
/-- R109 -/
theorem test_text_or :
    [0x403160B3#32, 0x003160B3#32].map (wordText .numeric) =
    ["ERROR UnrecognizedFunct7(funct7=32)", "or x1,x2,x3"] := by decide
/-- R110 -/
theorem test_text_and :
    [0x01FFFFB3#32, 0x003170B3#32].map (wordText .numeric) =
    ["and x31,x31,x31", "and x1,x2,x3"] := by decide
/-- R121 -/
theorem test_text_addi :
    [0x00000013#32, 0xFFF08093#32, 0x00558513#32].map (wordText .numeric) =
    ["addi x0,x0,0", "addi x1,x1,4095", "addi x10,x11,5"] := by decide
/-- R122 -/
theorem test_text_slti :
    [0xFFF5A513#32, 0x0015A513#32].map (wordText .numeric) =
    ["slti x10,x11,4095", "slti x10,x11,1"] := by decide
/-- R123 -/
theorem test_text_sltiu :
    [0x8005B513#32, 0x0015B513#32].map (wordText .numeric) =
    ["sltiu x10,x11,2048", "sltiu x10,x11,1"] := by decide
/-- R124 -/
theorem test_text_xori :
    [0xFFF2C293#32, 0x8005C513#32].map (wordText .numeric) =
    ["xori x5,x5,4095", "xori x10,x11,2048"] := by decide
/-- R125 -/
theorem test_text_ori :
    [0x00006013#32, 0x0FF5E513#32].map (wordText .numeric) =
    ["ori x0,x0,0", "ori x10,x11,255"] := by decide
/-- R126 -/
theorem test_text_andi :
    [0x0FF57513#32, 0x00F5F513#32].map (wordText .numeric) =
    ["andi x10,x10,255", "andi x10,x11,15"] := by decide
/-- R127 -/
theorem test_text_slli :
    [0x00031293#32, 0x01F31293#32, 0x02031293#32, 0x00331293#32].map (wordText .numeric) =
    ["slli x5,x6,0", "slli x5,x6,31", "ERROR UnrecognizedFunct7(funct7=1)", "slli x5,x6,3"] := by decide
/-- R128 -/
theorem test_text_srli :
    [0x00035293#32, 0x02135293#32, 0x01F35293#32].map (wordText .numeric) =
    ["srli x5,x6,0", "ERROR UnrecognizedFunct7(funct7=1)", "srli x5,x6,31"] := by decide
/-- R129 -/
theorem test_text_srai :
    [0x40035293#32, 0x41F35293#32, 0x60135293#32, 0x40435293#32].map (wordText .numeric) =
    ["srai x5,x6,1024", "srai x5,x6,1055", "ERROR UnrecognizedFunct7(funct7=48)", "srai x5,x6,1028"] := by decide
/-- R130 -/
theorem test_text_jalr :
    [0x00008067#32, 0xFFF280E7#32, 0x00009067#32].map (wordText .numeric) =
    ["jalr x0,x1,0", "jalr x1,x5,4095", "ERROR UnrecognizedFunct3(funct3=1)"] := by decide
/-- R141 -/
theorem test_text_lb :
    [0xFFF10503#32, 0x00000003#32, 0x00810503#32].map (wordText .numeric) =
    ["lb x10,4095(x2)", "lb x0,0(x0)", "lb x10,8(x2)"] := by decide
/-- R142 -/
theorem test_text_lh :
    [0x80041483#32, 0x00811503#32].map (wordText .numeric) =
    ["lh x9,2048(x8)", "lh x10,8(x2)"] := by decide
/-- R143 -/
theorem test_text_lw :
    [0x00002083#32, 0x00813503#32, 0x00812503#32].map (wordText .numeric) =
    ["lw x1,0(x0)", "ERROR UnrecognizedFunct3(funct3=3)", "lw x10,8(x2)"] := by decide
/-- R144 -/
theorem test_text_lbu :
    [0xFFFFCF83#32, 0x00814503#32].map (wordText .numeric) =
    ["lbu x31,4095(x31)", "lbu x10,8(x2)"] := by decide
/-- R145 -/
theorem test_text_lhu :
    [0x00816503#32, 0x00815503#32].map (wordText .numeric) =
    ["ERROR UnrecognizedFunct3(funct3=6)", "lhu x10,8(x2)"] := by decide
/-- R151 -/
theorem test_text_sb :
    [0x02A10023#32, 0x00A100A3#32, 0x00A10623#32].map (wordText .numeric) =
    ["sb x10,32(x2)", "sb x10,1(x2)", "sb x10,12(x2)"] := by decide
/-- R152 -/
theorem test_text_sh :
    [0xFEA11FA3#32, 0x00A11623#32].map (wordText .numeric) =
    ["sh x10,4095(x2)", "sh x10,12(x2)"] := by decide
/-- R153 -/
theorem test_text_sw :
    [0x00002023#32, 0x00A13423#32, 0x00A12623#32].map (wordText .numeric) =
    ["sw x0,0(x0)", "ERROR UnrecognizedFunct3(funct3=3)", "sw x10,12(x2)"] := by decide
/-- R161 -/
theorem test_text_beq :
    [0xFEB50FE3#32, 0x00000063#32, 0x00B50863#32].map (wordText .numeric) =
    ["beq x10,x11,4095", "beq x0,x0,0", "beq x10,x11,8"] := by decide
/-- R162 -/
theorem test_text_bne :
    [0x000290E3#32, 0x80029063#32, 0x00B51863#32].map (wordText .numeric) =
    ["bne x5,x0,1024", "bne x5,x0,2048", "bne x10,x11,8"] := by decide
/-- R163 -/
theorem test_text_blt :
    [0x0062C163#32, 0x00B54863#32].map (wordText .numeric) =
    ["blt x5,x6,1", "blt x10,x11,8"] := by decide
/-- R164 -/
theorem test_text_bge :
    [0x0262D063#32, 0x00B55863#32].map (wordText .numeric) =
    ["bge x5,x6,16", "bge x10,x11,8"] := by decide
/-- R165 -/
theorem test_text_bltu :
    [0x00B52863#32, 0x00B56863#32].map (wordText .numeric) =
    ["ERROR UnrecognizedFunct3(funct3=2)", "bltu x10,x11,8"] := by decide
/-- R166 -/
theorem test_text_bgeu :
    [0x00B53863#32, 0x00B57863#32].map (wordText .numeric) =
    ["ERROR UnrecognizedFunct3(funct3=3)", "bgeu x10,x11,8"] := by decide
/-- R171 -/
theorem test_text_auipc :
    [0xFFFFF297#32, 0x00000017#32, 0x00001297#32].map (wordText .numeric) =
    ["auipc x5,1048575", "auipc x0,0", "auipc x5,1"] := by decide
/-- R172 -/
theorem test_text_lui :
    [0xFFFFFFB7#32, 0x800000B7#32, 0x003E8337#32].map (wordText .numeric) =
    ["lui x31,1048575", "lui x1,524288", "lui x6,1000"] := by decide
/-- R181 -/
theorem test_text_jal :
    [0x002000EF#32, 0x001000EF#32, 0x000010EF#32, 0xFFFFF06F#32, 0x0000006F#32].map (wordText .numeric) =
    ["jal x1,1", "jal x1,1024", "jal x1,2048", "jal x0,1048575", "jal x0,0"] := by decide
/-- R191 -/
theorem test_text_csrrw :
    [0x30029073#32, 0xFFF09173#32, 0x30029573#32].map (wordText .numeric) =
    ["csrrw x0,768,x5", "csrrw x2,4095,x1", "csrrw x10,768,x5"] := by decide
/-- R192 -/
theorem test_text_csrrs :
    [0xC0002573#32, 0x3002A573#32].map (wordText .numeric) =
    ["csrrs x10,3072,x0", "csrrs x10,768,x5"] := by decide
/-- R193 -/
theorem test_text_csrrc :
    [0x0002B573#32, 0x3002B573#32].map (wordText .numeric) =
    ["csrrc x10,0,x5", "csrrc x10,768,x5"] := by decide
/-- R194 -/
theorem test_text_csrrwi :
    [0x300FD573#32, 0x3002D573#32].map (wordText .numeric) =
    ["csrrwi x10,768,x31", "csrrwi x10,768,x5"] := by decide
/-- R195 -/
theorem test_text_csrrsi :
    [0x30006573#32, 0x3002E573#32].map (wordText .numeric) =
    ["csrrsi x10,768,x0", "csrrsi x10,768,x5"] := by decide
/-- R196 -/
theorem test_text_csrrci :
    [0x30047573#32, 0x3002F573#32].map (wordText .numeric) =
    ["csrrci x10,768,x8", "csrrci x10,768,x5"] := by decide
/-- R197 -/
theorem test_text_ecall :
    [0x000002F3#32, 0x30200073#32, 0x10500073#32, 0x00000073#32].map (wordText .numeric) =
    ["ecall x5,0,x0", "ERROR UnrecognizedFunct7(funct12=770)", "ERROR UnrecognizedFunct7(funct12=261)",
      "ecall x0,0,x0"] := by decide
/-- R198 -/
theorem test_text_ebreak :
    [0x00108073#32, 0x00200073#32, 0x00100073#32].map (wordText .numeric) =
    ["ebreak x0,1,x1", "ERROR UnrecognizedFunct7(funct12=2)", "ebreak x0,1,x0"] := by decide

/-! ## The vectors of spec/95_test_vectors.md -/

/-- A small state: the block as built, on whose input the next word presented is `w`. -/
def stateOn (conv : RegNames) (w : Word) : State :=
  { regNames := conv, instr_i := 0, ext := extract 0, res := errorPorts (errOpcode 0), upcoming := [w],
    results := [] }

/-- The state after one step, where the step answers one. -/
def afterStep (s : State) : Option State :=
  match step s with
  | .next t => some t
  | .fault _ => none
  | .refused _ => none

/-- The columns `fmt_o`, `mnem_o`, `imm_o`, `csr_o` of the vectors, after one step. -/
def columns (w : Word) : Option (Nat × Nat × Nat × Nat) :=
  (afterStep (stateOn .numeric w)).map fun t => (t.res.fmt_o.toNat, t.res.mnem_o.toNat, t.res.imm_o.toNat,
    t.res.csr_o.toNat)

theorem test_leaf_columns_1 :
    [0x00000033#32, 0x40000033#32, 0x00001033#32, 0x00002033#32, 0x00003033#32, 0x00004033#32, 0x00005033#32,
      0x40005033#32, 0x00006033#32].map columns =
    [some (0, 1, 0, 0), some (0, 2, 0, 0), some (0, 3, 0, 0), some (0, 4, 0, 0), some (0, 5, 0, 0), some (0, 6, 0, 0),
      some (0, 7, 0, 0), some (0, 8, 0, 0), some (0, 9, 0, 0)] := by decide
theorem test_leaf_columns_2 :
    [0x00007033#32, 0x00000013#32, 0x00001013#32, 0x00002013#32, 0x00003013#32, 0x00004013#32, 0x00005013#32,
      0x40005013#32, 0x00006013#32].map columns =
    [some (0, 10, 0, 0), some (1, 11, 0, 0), some (1, 17, 0, 0), some (1, 12, 0, 0), some (1, 13, 0, 0), some (1, 14,
      0, 0), some (1, 18, 0, 0), some (1, 19, 1024, 0), some (1, 15, 0, 0)] := by decide
theorem test_leaf_columns_3 :
    [0x00007013#32, 0x00000067#32, 0x00000003#32, 0x00001003#32, 0x00002003#32, 0x00004003#32, 0x00005003#32,
      0x00000023#32, 0x00001023#32].map columns =
    [some (1, 16, 0, 0), some (1, 20, 0, 0), some (2, 21, 0, 0), some (2, 22, 0, 0), some (2, 23, 0, 0), some (2, 24,
      0, 0), some (2, 25, 0, 0), some (3, 26, 0, 0), some (3, 27, 0, 0)] := by decide
theorem test_leaf_columns_4 :
    [0x00002023#32, 0x00000063#32, 0x00001063#32, 0x00004063#32, 0x00005063#32, 0x00006063#32, 0x00007063#32,
      0x00000017#32, 0x00000037#32].map columns =
    [some (3, 28, 0, 0), some (4, 29, 0, 0), some (4, 30, 0, 0), some (4, 31, 0, 0), some (4, 32, 0, 0), some (4, 33,
      0, 0), some (4, 34, 0, 0), some (5, 35, 0, 0), some (6, 36, 0, 0)] := by decide
theorem test_leaf_columns_5 :
    [0x0000006F#32, 0x00000073#32, 0x00100073#32, 0x00001073#32, 0x00002073#32, 0x00003073#32, 0x00005073#32,
      0x00006073#32, 0x00007073#32].map columns =
    [some (7, 37, 0, 0), some (8, 44, 0, 0), some (8, 45, 0, 1), some (8, 38, 0, 0), some (8, 39, 0, 0), some (8, 40,
      0, 0), some (8, 41, 0, 0), some (8, 42, 0, 0), some (8, 43, 0, 0)] := by decide
theorem test_family_columns_r :
    [0x00000033#32, 0x01FF8FB3#32, 0x407282B3#32, 0x423100B3#32, 0x023100B3#32, 0x403110B3#32, 0x4094D433#32,
      0xFE10F0B3#32].map columns =
    [some (0, 1, 0, 0), some (0, 1, 0, 0), some (0, 2, 0, 0), some (15, 0, 0, 0), some (15, 0, 0, 0), some (15, 0, 0,
      0), some (0, 8, 0, 0), some (15, 0, 0, 0)] := by decide
theorem test_family_texts_r :
    [0x00000033#32, 0x01FF8FB3#32, 0x407282B3#32, 0x423100B3#32, 0x023100B3#32, 0x403110B3#32, 0x4094D433#32,
      0xFE10F0B3#32].map (wordText .numeric) =
    ["add x0,x0,x0", "add x31,x31,x31", "sub x5,x5,x7", "ERROR UnrecognizedFunct7(funct7=33)",
      "ERROR UnrecognizedFunct7(funct7=1)", "ERROR UnrecognizedFunct7(funct7=32)", "sra x8,x9,x9",
      "ERROR UnrecognizedFunct7(funct7=127)"] := by decide
theorem test_family_columns_i :
    [0x00000013#32, 0xFFF08093#32, 0x80012193#32, 0x7FF13193#32, 0x00031293#32, 0x01F31293#32, 0x02031293#32,
      0x40035293#32, 0x41F35293#32, 0x20035293#32, 0x00008067#32, 0x0000C067#32].map columns =
    [some (1, 11, 0, 0), some (1, 11, 4095, 0), some (1, 12, 2048, 0), some (1, 13, 2047, 0), some (1, 17, 0, 0),
      some (1, 17, 31, 0), some (15, 0, 0, 0), some (1, 19, 1024, 0), some (1, 19, 1055, 0), some (15, 0, 0, 0),
      some (1, 20, 0, 0), some (15, 0, 0, 0)] := by decide
theorem test_family_texts_i :
    [0x00000013#32, 0xFFF08093#32, 0x80012193#32, 0x7FF13193#32, 0x00031293#32, 0x01F31293#32, 0x02031293#32,
      0x40035293#32, 0x41F35293#32, 0x20035293#32, 0x00008067#32, 0x0000C067#32].map (wordText .numeric) =
    ["addi x0,x0,0", "addi x1,x1,4095", "slti x3,x2,2048", "sltiu x3,x2,2047", "slli x5,x6,0", "slli x5,x6,31",
      "ERROR UnrecognizedFunct7(funct7=1)", "srai x5,x6,1024", "srai x5,x6,1055",
      "ERROR UnrecognizedFunct7(funct7=16)", "jalr x0,x1,0", "ERROR UnrecognizedFunct3(funct3=4)"] := by decide
theorem test_family_columns_load :
    [0xFFF10503#32, 0x80041483#32, 0x00002003#32, 0x00813503#32, 0x00816503#32, 0x00817503#32].map columns =
    [some (2, 21, 4095, 0), some (2, 22, 2048, 0), some (2, 23, 0, 0), some (15, 0, 0, 0), some (15, 0, 0, 0),
      some (15, 0, 0, 0)] := by decide
theorem test_family_texts_load :
    [0xFFF10503#32, 0x80041483#32, 0x00002003#32, 0x00813503#32, 0x00816503#32,
      0x00817503#32].map (wordText .numeric) =
    ["lb x10,4095(x2)", "lh x9,2048(x8)", "lw x0,0(x0)", "ERROR UnrecognizedFunct3(funct3=3)",
      "ERROR UnrecognizedFunct3(funct3=6)", "ERROR UnrecognizedFunct3(funct3=7)"] := by decide
theorem test_family_columns_store :
    [0x00002023#32, 0x00A100A3#32, 0x02A10023#32, 0xFEA11FA3#32, 0x7E322023#32, 0x00A14423#32].map columns =
    [some (3, 28, 0, 0), some (3, 26, 1, 0), some (3, 26, 32, 0), some (3, 27, 4095, 0), some (3, 28, 2016, 0),
      some (15, 0, 0, 0)] := by decide
theorem test_family_texts_store :
    [0x00002023#32, 0x00A100A3#32, 0x02A10023#32, 0xFEA11FA3#32, 0x7E322023#32,
      0x00A14423#32].map (wordText .numeric) =
    ["sw x0,0(x0)", "sb x10,1(x2)", "sb x10,32(x2)", "sh x10,4095(x2)", "sw x3,2016(x4)",
      "ERROR UnrecognizedFunct3(funct3=4)"] := by decide
theorem test_family_columns_branch :
    [0x00628163#32, 0x02629063#32, 0x0062C0E3#32, 0x8062D063#32, 0xFE62EFE3#32, 0xFE059CE3#32, 0x00B52863#32,
      0x00B53863#32].map columns =
    [some (4, 29, 1, 0), some (4, 30, 16, 0), some (4, 31, 1024, 0), some (4, 32, 2048, 0), some (4, 33, 4095, 0),
      some (4, 30, 4092, 0), some (15, 0, 0, 0), some (15, 0, 0, 0)] := by decide
theorem test_family_texts_branch :
    [0x00628163#32, 0x02629063#32, 0x0062C0E3#32, 0x8062D063#32, 0xFE62EFE3#32, 0xFE059CE3#32, 0x00B52863#32,
      0x00B53863#32].map (wordText .numeric) =
    ["beq x5,x6,1", "bne x5,x6,16", "blt x5,x6,1024", "bge x5,x6,2048", "bltu x5,x6,4095", "bne x11,x0,4092",
      "ERROR UnrecognizedFunct3(funct3=2)", "ERROR UnrecognizedFunct3(funct3=3)"] := by decide
theorem test_family_columns_upper :
    [0x00000037#32, 0x003E8337#32, 0xFFFFFFB7#32, 0x80000097#32, 0x00001297#32].map columns =
    [some (6, 36, 0, 0), some (6, 36, 1000, 0), some (6, 36, 1048575, 0), some (5, 35, 524288, 0), some (5, 35, 1,
      0)] := by decide
theorem test_family_texts_upper :
    [0x00000037#32, 0x003E8337#32, 0xFFFFFFB7#32, 0x80000097#32, 0x00001297#32].map (wordText .numeric) =
    ["lui x0,0", "lui x6,1000", "lui x31,1048575", "auipc x1,524288", "auipc x5,1"] := by decide
theorem test_family_columns_jump :
    [0x0000006F#32, 0x002000EF#32, 0x001000EF#32, 0x000010EF#32, 0xFFFFF06F#32, 0xFFDFF0EF#32].map columns =
    [some (7, 37, 0, 0), some (7, 37, 1, 0), some (7, 37, 1024, 0), some (7, 37, 2048, 0), some (7, 37, 1048575, 0),
      some (7, 37, 1048574, 0)] := by decide
theorem test_family_texts_jump :
    [0x0000006F#32, 0x002000EF#32, 0x001000EF#32, 0x000010EF#32, 0xFFFFF06F#32,
      0xFFDFF0EF#32].map (wordText .numeric) =
    ["jal x0,0", "jal x1,1", "jal x1,1024", "jal x1,2048", "jal x0,1048575", "jal x1,1048574"] := by decide
theorem test_family_columns_system :
    [0x30029573#32, 0xC0002573#32, 0xFFF0B173#32, 0x305FD073#32, 0x30006573#32, 0x30047573#32, 0x00000073#32,
      0x00100073#32, 0x000002F3#32, 0x30200073#32, 0x10500073#32, 0x3002C573#32].map columns =
    [some (8, 38, 0, 768), some (8, 39, 0, 3072), some (8, 40, 0, 4095), some (8, 41, 0, 773), some (8, 42, 0, 768),
      some (8, 43, 0, 768), some (8, 44, 0, 0), some (8, 45, 0, 1), some (8, 44, 0, 0), some (15, 0, 0, 0), some (15,
      0, 0, 0), some (15, 0, 0, 0)] := by decide
theorem test_family_texts_system :
    [0x30029573#32, 0xC0002573#32, 0xFFF0B173#32, 0x305FD073#32, 0x30006573#32, 0x30047573#32, 0x00000073#32,
      0x00100073#32, 0x000002F3#32, 0x30200073#32, 0x10500073#32, 0x3002C573#32].map (wordText .numeric) =
    ["csrrw x10,768,x5", "csrrs x10,3072,x0", "csrrc x2,4095,x1", "csrrwi x0,773,x31", "csrrsi x10,768,x0",
      "csrrci x10,768,x8", "ecall x0,0,x0", "ebreak x0,1,x0", "ecall x5,0,x0",
      "ERROR UnrecognizedFunct7(funct12=770)", "ERROR UnrecognizedFunct7(funct12=261)",
      "ERROR UnrecognizedFunct3(funct3=4)"] := by decide
theorem test_unrecognised_opcodes :
    [0x0000000F#32, 0x0FF0000F#32, 0x0000100F#32, 0x0005A02F#32, 0x00052007#32, 0x00000053#32, 0x0000000B#32,
      0x00000001#32, 0x00000000#32, 0x0000001B#32, 0x0000007F#32].map (wordText .numeric) =
    ["ERROR UnrecognizedOpcode(opcode=15)", "ERROR UnrecognizedOpcode(opcode=15)",
      "ERROR UnrecognizedOpcode(opcode=15)", "ERROR UnrecognizedOpcode(opcode=47)",
      "ERROR UnrecognizedOpcode(opcode=7)", "ERROR UnrecognizedOpcode(opcode=83)",
      "ERROR UnrecognizedOpcode(opcode=11)", "ERROR UnrecognizedOpcode(opcode=1)",
      "ERROR UnrecognizedOpcode(opcode=0)", "ERROR UnrecognizedOpcode(opcode=27)",
      "ERROR UnrecognizedOpcode(opcode=127)"] := by decide
theorem test_precedence :
    [0xFFFFFFFF#32, 0xFE00307F#32, 0xFE003003#32, 0xFE0000B3#32, 0xFFF04073#32,
      0xFFF00073#32].map (wordText .numeric) =
    ["ERROR UnrecognizedOpcode(opcode=127)", "ERROR UnrecognizedOpcode(opcode=127)",
      "ERROR UnrecognizedFunct3(funct3=3)", "ERROR UnrecognizedFunct7(funct7=127)",
      "ERROR UnrecognizedFunct3(funct3=4)", "ERROR UnrecognizedFunct7(funct12=4095)"] := by decide
theorem test_abi_texts :
    [0x003100B3#32, 0x00812503#32, 0x00112623#32, 0x00008067#32, 0x01FF0EB3#32, 0x3002D073#32].map (wordText .abi) =
    ["add ra,sp,gp", "lw a0,8(sp)", "sw ra,12(sp)", "jalr zero,ra,0", "add t4,t5,t6",
      "csrrwi zero,768,t0"] := by decide
/-- The columns of vectors 2.2: opcode, funct3, funct7, rd, rs1, rs2, `w[31:20]`. -/
def extractorColumns (w : Word) : List Nat :=
  [(extract w).opcode_o.toNat, (extract w).funct3_o.toNat, (extract w).funct7_o.toNat, (extract w).rd_o.toNat,
    (extract w).rs1_o.toNat, (extract w).rs2_o.toNat, (extract w).w31_20_o.toNat]

theorem test_extractor :
    [0x00000000#32, 0xFFFFFFFF#32, 0x003100B3#32, 0x80000001#32, 0x0000707F#32, 0xFE000F80#32, 0x000F8000#32,
      0x01F00000#32, 0x12345678#32].map extractorColumns =
    [[0b0000000, 0b000, 0b0000000, 0, 0, 0, 0b000000000000], [0b1111111, 0b111, 0b1111111, 31, 31, 31,
      0b111111111111], [0b0110011, 0b000, 0b0000000, 1, 2, 3, 0b000000000011], [0b0000001, 0b000, 0b1000000, 0, 0, 0,
      0b100000000000], [0b1111111, 0b111, 0b0000000, 0, 0, 0, 0b000000000000], [0b0000000, 0b000, 0b1111111, 31, 0, 0,
      0b111111100000], [0b0000000, 0b000, 0b0000000, 0, 31, 0, 0b000000000000], [0b0000000, 0b000, 0b0000000, 0, 0,
      31, 0b000000011111], [0b1111000, 0b101, 0b0001001, 12, 8, 3, 0b000100100011]] := by decide

/-! ## The programs of spec/95 section 3: buffers disassembled in order -/

/-- The report of a buffer: the texts of its words in input order (R50). -/
def bufferTexts (ws : List Word) : List String := (decodeBatch .numeric ws).map (Result.text .numeric)

theorem test_program_p1 :
    bufferTexts [0x00000513#32, 0x00A00593#32, 0x00B50533#32, 0xFFF58593#32, 0xFE059CE3#32, 0x00251613#32,
      0x40165693#32, 0x0000006F#32] =
    ["addi x10,x0,0", "addi x11,x0,10", "add x10,x10,x11", "addi x11,x11,4095", "bne x11,x0,4092", "slli x12,x10,2",
      "srai x13,x12,1025", "jal x0,0"] := by decide
theorem test_program_p2 :
    bufferTexts [0x100002B7#32, 0x0002A303#32, 0x0032C383#32, 0x0062A423#32, 0xFE729F23#32, 0x7E028FA3#32,
      0x00008067#32] =
    ["lui x5,65536", "lw x6,0(x5)", "lbu x7,3(x5)", "sw x6,8(x5)", "sh x7,4094(x5)", "sb x0,2047(x5)",
      "jalr x0,x1,0"] := by decide
theorem test_program_p3 :
    bufferTexts [0xC0002573#32, 0x30559073#32, 0x30045073#32, 0x3040F2F3#32, 0x00000073#32, 0x00100073#32,
      0x30200073#32] =
    ["csrrs x10,3072,x0", "csrrw x0,773,x11", "csrrwi x0,768,x8", "csrrci x5,772,x1", "ecall x0,0,x0",
      "ebreak x0,1,x0", "ERROR UnrecognizedFunct7(funct12=770)"] := by decide
theorem test_program_p4 :
    bufferTexts [0x0FF0000F#32, 0x02B50533#32, 0x00013503#32, 0xFF010113#32, 0xFFFFFFFF#32, 0x00112623#32] =
    ["ERROR UnrecognizedOpcode(opcode=15)", "ERROR UnrecognizedFunct7(funct7=1)",
      "ERROR UnrecognizedFunct3(funct3=3)", "addi x2,x2,4080", "ERROR UnrecognizedOpcode(opcode=127)",
      "sw x1,12(x2)"] := by decide

/-- The same through the machine,
  for one word of a buffer: its result is collected and the next word is presented next. -/
theorem test_step_takes_one_word :
    (afterStep { stateOn .numeric 0 with upcoming := [0x0FF0000F#32, 0x02B50533#32] }).map
      (fun t => (State.report t, t.nextWord)) = some (["ERROR UnrecognizedOpcode(opcode=15)"],
        0x02B50533#32) := by decide

/-! ## The hand-computed immediates of L1-7 -/

theorem test_l1_7 :
    [0x80000863#32, 0x801FF0EF#32].map (wordText .numeric) = ["beq x0,x0,2056", "jal x1,1047552"] := by decide

/-! ## The input port and the host's word interface -/

/-- R40: the string's first digit is `w[31]`. -/
theorem test_binary_string : wordOfBinaryString "00000000001100010000000010110011" = some 0x003100B3#32 := by decide
/-- R45: a string of another length is no word. -/
theorem test_binary_string_length : wordOfBinaryString "0000000000110001000000001011001" = none := by decide
/-- R41: little-endian parcels. -/
theorem test_parcel : wordOfParcel 0xB3 0x00 0x31 0x00 = 0x003100B3#32 := by decide
theorem test_table_word : decodeTableWord 32 0x003100B3 = some (.add 1 2 3) ∧ decodeTableWord 32 0x7F = none := by decide
theorem test_first_after_reset :
    (afterStep (State.reset.withFetchWord 32 0x003100B3)).map (fun t => (t.instr_i, t.res.mnem_o, State.report t)) =
      some (0x003100B3#32, 1#6, ["add x1,x2,x3"]) := by decide

/-! ## Witnesses: for each statement with hypotheses, values that meet them (for each clause, at the ends of its range) -/

/-- `Spec.Gives w p` and the family statements: whatever the word, some state has it as the next word. -/
theorem witness_next_word (w : Word) : (stateOn .abi w).nextWord = w := rfl

theorem witness_EveryWellFormedInstrRoundTrips :
    (Instr.srai 31 31 0b010000011111#12).wellFormed = true ∧ (Instr.ecall 31 0 31).wellFormed = true ∧
      (Instr.jal 31 0xFFFFF#20).wellFormed = true := by decide

theorem witness_DecodedInstrReencodesToItsWord : decode 0xFE059CE3#32 = .ok (.bne 11 0 4092) := by decide

/-- A word that a row matches, and one that its neighbour does not. -/
theorem witness_TrieWalkAgreesWithOpcodeRows :
    (0x407282B3#32 &&& Mnemonic.sub.maskWord = Mnemonic.sub.matchWord) ∧
      ¬ (0x423100B3#32 &&& Mnemonic.sub.maskWord = Mnemonic.sub.matchWord) := by decide

theorem witness_EachWordReachesAtMostOneRow :
    (0x003100B3#32 &&& Mnemonic.add.maskWord = Mnemonic.add.matchWord) ∧
      ∀ m ∈ allMnemonics, 0x0000007F#32 &&& m.maskWord ≠ m.matchWord := by decide

theorem witness_TablesShareOpcodeKeys : (lookup opcodeFormatTable 0b1110011#7).isSome = true := by decide

/-- A success and each way of failing, for the statements about the ports after a step. -/
theorem witness_ok_and_error_ports :
    [0x003100B3#32, 0x0000007F#32, 0x00813503#32, 0x023100B3#32, 0x30200073#32].map
      (fun w => (afterStep (stateOn .numeric w)).map fun t => t.res.ok_o) = [some 1, some 0, some 0, some 0, some 0] := by
  decide

theorem witness_FormatFollowsOpcodeAlone :
    Spec.formatOf (Spec.slice 0xFFFFFFF3#32 6 0) = some 8 ∧ Spec.formatOf (Spec.slice 0x0000007F#32 6 0) = none := by
  decide

/-- Successes with `w[31] = 1` and a 12-bit, then a 20-bit immediate, at the bound itself. -/
theorem witness_ImmediatesAreUnsignedConcatenations :
    [0x80000013#32, 0x80000097#32].map
      (fun w => (Spec.slice w 31 31, (afterStep (stateOn .numeric w)).map fun t => (t.res.ok_o, t.res.immw_o, t.res.imm_o))) =
        [(1, some (1, 12, 2048)), (1, some (1, 20, 524288))] := by decide

theorem witness_EveryWordHasOneOutcome :
    [0x0000007F#32, 0x00813503#32, 0x023100B3#32, 0x30200073#32, 0x003100B3#32].map Spec.errorOf =
      [some (Spec.errPorts 1 1 127), some (Spec.errPorts 2 2 3), some (Spec.errPorts 3 3 1), some (Spec.errPorts 3 4 770),
        none] := by decide

theorem witness_ErrorTexts :
    ([0x00000000#32, 0xFFFFFFFF#32].all fun w => Spec.slice w 6 0 ∉ Spec.opcodes) ∧
    ([0x00813503#32, 0xFE003003#32, 0x00A17423#32, 0x00B53863#32, 0x00009067#32, 0x3002C573#32].all fun w =>
      Spec.BadFunct3 (Spec.slice w 6 0) (Spec.slice w 14 12)) ∧
    ([0x023100B3#32, 0xFE10F0B3#32, 0x02031293#32, 0x60135293#32].all fun w =>
      Spec.BadFunct7 (Spec.slice w 6 0) (Spec.slice w 14 12) (Spec.slice w 31 25)) ∧
    ([0x00200073#32, 0xFFF00073#32].all fun w => Spec.BadFunct12 (Spec.slice w 6 0) (Spec.slice w 14 12) (Spec.slice w 31 20)) := by
  repeat' apply And.intro
  all_goals decide

/-- A table of the first sixteen names: it names every register of `add x1,x2,x3`; in `add x31,x2,x3` it misses the first
register, in `sw x3,5(x31)` the last. -/
theorem witness_RegisterCheckRaisesForTheFirstUnnamedIndex :
    (∀ p ∈ Spec.templateRegisters 0x003100B3 .r, (numericNames.take 16)[p.2.toNat]? ≠ none) ∧
      Spec.templateRegisters 0x00310FB3 .r = [] ++ (.rd, 31#5) :: [(.rs1, 2#5), (.rs2, 3#5)] ∧
      Spec.templateRegisters 0x003FA2A3 .s = [(.rs2, 3#5)] ++ (.rs1, 31#5) :: [] ∧
      (∀ p ∈ [(Field.rs2, 3#5)], (numericNames.take 16)[p.2.toNat]? ≠ none) ∧
      (numericNames.take 16)[(31#5).toNat]? = none := by
  repeat' apply And.intro
  all_goals decide

/-- Two states that agree on nothing but the next word. -/
theorem witness_OutputsDependOnInputWordOnly :
    (stateOn .numeric 0x003100B3#32).nextWord =
      State.nextWord { stateOn .abi 0 with upcoming := [], instr_i := 0x003100B3#32, res := errorPorts (errFunct3 3) } := by
  decide

/-- Different words with the same keys: a leaf keyed by opcode alone, one keyed by funct12, an error, an unknown opcode. -/
theorem witness_DecodeOutcomeDependsOnTrieKeysOnly :
    ([(0x00000017#32, 0xFFFFFF97#32), (0x00000073#32, 0x000F8FF3#32), (0x0062C163#32, 0xFFF5C163#32),
        (0x00331293#32, 0x01FF9F93#32), (0x023100B3#32, 0x03FF8FB3#32), (0x00000000#32, 0xFFFFFF80#32)].all fun p =>
      p.1 ≠ p.2 ∧ Spec.SameKeys (stateOn .numeric p.1).nextWord (stateOn .abi p.2).nextWord) := by decide

theorem witness_StepRunsTheDecodedInstr :
    decode (stateOn .numeric 0x003100B3#32).nextWord = .ok (.add 1 2 3) ∧
      decode (stateOn .numeric 0x0000007F#32).nextWord = .error ⟨.unrecognizedOpcode, .opcode, 127⟩ := by decide

/-- Also with fewer bits than a word, and with bits above the count, which are dropped. -/
theorem witness_PresentedWordIsRunNext :
    decodeTableWord 32 0xFFFFFF97 = some (.auipc 31 0xFFFFF) ∧ decodeTableWord 7 0xFFFFFF97 = some (.auipc 0 0) := by decide

theorem witness_BatchResultsFollowInputOrder :
    State.upcoming { stateOn .numeric 0 with upcoming := [0x003100B3#32, 0x0000007F#32] } = [0x003100B3#32, 0x0000007F#32] := by
  decide

theorem witness_OneWordNeverAffectsAnothersResult :
    (stateOn .numeric 0x003100B3#32).upcoming = [] ++ 0x003100B3#32 :: [] ∧
      (stateOn .numeric 0x0000007F#32).upcoming = [] ++ 0x0000007F#32 :: [] ∧
      (stateOn .numeric 0x003100B3#32).regNames = (stateOn .numeric 0x0000007F#32).regNames ∧
      (stateOn .numeric 0x003100B3#32).results = [] ∧ (stateOn .numeric 0x0000007F#32).results = [] := by decide

theorem witness_OperandTextsAndPortCodes : regName .abi 31 = some "t6" ∧ regName .numeric 31 = some "x31" := by decide

theorem witness_BinaryStringBitOrder :
    (List.replicate 32 true).length = 32 ∧ (List.replicate 33 true).length ≠ 32 ∧ ([] : List Bool).length ≠ 32 := by decide

theorem witness_OpAndOpImmNeverRaiseFunct3Error :
    ([0x00000033#32, 0xFFFFFFB3#32].all fun w => Spec.key1 0b0110011 w) ∧
    ([0x00000013#32, 0xFFFFFF93#32].all fun w => Spec.key1 0b0010011 w) := by
  repeat' apply And.intro
  all_goals decide

theorem witness_RFormatRules :
    ([0x023100B3#32, 0x423150B3#32, 0x403110B3#32, 0xFE10F0B3#32].all fun w => Spec.key1 0b0110011 w ∧
      Spec.BadFunct7 0b0110011 (Spec.slice w 14 12) (Spec.slice w 31 25)) ∧
    ([0x00000033#32, 0x01FF8FB3#32].all fun w => Spec.key3 0b0110011 0b000 0b0000000 w) ∧
    ([0x40000033#32, 0x41FF8FB3#32].all fun w => Spec.key3 0b0110011 0b000 0b0100000 w) ∧
    ([0x00001033#32, 0x01FF9FB3#32].all fun w => Spec.key3 0b0110011 0b001 0b0000000 w) ∧
    ([0x00002033#32, 0x01FFAFB3#32].all fun w => Spec.key3 0b0110011 0b010 0b0000000 w) ∧
    ([0x00003033#32, 0x01FFBFB3#32].all fun w => Spec.key3 0b0110011 0b011 0b0000000 w) ∧
    ([0x00004033#32, 0x01FFCFB3#32].all fun w => Spec.key3 0b0110011 0b100 0b0000000 w) ∧
    ([0x00005033#32, 0x01FFDFB3#32].all fun w => Spec.key3 0b0110011 0b101 0b0000000 w) ∧
    ([0x40005033#32, 0x41FFDFB3#32].all fun w => Spec.key3 0b0110011 0b101 0b0100000 w) ∧
    ([0x00006033#32, 0x01FFEFB3#32].all fun w => Spec.key3 0b0110011 0b110 0b0000000 w) ∧
    ([0x00007033#32, 0x01FFFFB3#32].all fun w => Spec.key3 0b0110011 0b111 0b0000000 w) := by
  repeat' apply And.intro
  all_goals decide

theorem witness_IFormatRules :
    ([0x80000013#32, 0xFFF08093#32].all fun w => Spec.slice w 31 31 = 1) ∧
    ([0x02031293#32, 0xFE031293#32].all fun w => Spec.key2 0b0010011 0b001 w ∧ Spec.slice w 31 25 ≠ 0b0000000) ∧
    ([0x02135293#32, 0x3E035293#32, 0x42035293#32, 0xFE035293#32].all fun w => Spec.key2 0b0010011 0b101 w ∧
      Spec.slice w 31 25 ∉ [0b0000000, 0b0100000]) ∧
    ([0x00009067#32, 0x0000F067#32].all fun w => Spec.key1 0b1100111 w ∧ Spec.slice w 14 12 ≠ 0b000) ∧
    ([0x00000013#32, 0xFFFF8F93#32].all fun w => Spec.key2 0b0010011 0b000 w) ∧
    ([0x00001013#32, 0x01FF9F93#32].all fun w => Spec.key3 0b0010011 0b001 0b0000000 w) ∧
    ([0x00002013#32, 0xFFFFAF93#32].all fun w => Spec.key2 0b0010011 0b010 w) ∧
    ([0x00003013#32, 0xFFFFBF93#32].all fun w => Spec.key2 0b0010011 0b011 w) ∧
    ([0x00004013#32, 0xFFFFCF93#32].all fun w => Spec.key2 0b0010011 0b100 w) ∧
    ([0x00005013#32, 0x01FFDF93#32].all fun w => Spec.key3 0b0010011 0b101 0b0000000 w) ∧
    ([0x40005013#32, 0x41FFDF93#32].all fun w => Spec.key3 0b0010011 0b101 0b0100000 w) ∧
    ([0x00006013#32, 0xFFFFEF93#32].all fun w => Spec.key2 0b0010011 0b110 w) ∧
    ([0x00007013#32, 0xFFFFFF93#32].all fun w => Spec.key2 0b0010011 0b111 w) ∧
    ([0x00000067#32, 0xFFFF8FE7#32].all fun w => Spec.key2 0b1100111 0b000 w) := by
  repeat' apply And.intro
  all_goals decide

theorem witness_LoadRules :
    ([0x00813503#32, 0x00816503#32, 0x00817503#32].all fun w => Spec.key1 0b0000011 w ∧
      Spec.slice w 14 12 ∈ [0b011, 0b110, 0b111]) ∧
    ([0x00000003#32, 0xFFFFAF83#32, 0xFFFFDF83#32].all fun w => Spec.key1 0b0000011 w ∧
      Spec.slice w 14 12 ∉ [0b011, 0b110, 0b111]) ∧
    ([0x00000003#32, 0xFFFF8F83#32].all fun w => Spec.key2 0b0000011 0b000 w) ∧
    ([0x00001003#32, 0xFFFF9F83#32].all fun w => Spec.key2 0b0000011 0b001 w) ∧
    ([0x00002003#32, 0xFFFFAF83#32].all fun w => Spec.key2 0b0000011 0b010 w) ∧
    ([0x00004003#32, 0xFFFFCF83#32].all fun w => Spec.key2 0b0000011 0b100 w) ∧
    ([0x00005003#32, 0xFFFFDF83#32].all fun w => Spec.key2 0b0000011 0b101 w) := by
  repeat' apply And.intro
  all_goals decide

theorem witness_StoreRules :
    ([0x00A13423#32, 0x00A17423#32].all fun w => Spec.key1 0b0100011 w ∧ 0b011 ≤ Spec.slice w 14 12) ∧
    ([0x00000023#32, 0xFFFFAFA3#32].all fun w => Spec.key1 0b0100011 w ∧ Spec.slice w 14 12 < 0b011) ∧
    ([0x02A10023#32].all fun w => Spec.slice w 31 25 = 0b0000001 ∧ Spec.slice w 11 7 = 0b00000) ∧
    ([0x00000023#32, 0xFFFF8FA3#32].all fun w => Spec.key2 0b0100011 0b000 w) ∧
    ([0x00001023#32, 0xFFFF9FA3#32].all fun w => Spec.key2 0b0100011 0b001 w) ∧
    ([0x00002023#32, 0xFFFFAFA3#32].all fun w => Spec.key2 0b0100011 0b010 w) := by
  repeat' apply And.intro
  all_goals decide

theorem witness_BranchRules :
    ([0x00B52863#32, 0x00B53863#32].all fun w => Spec.key1 0b1100011 w ∧ Spec.slice w 14 12 ∈ [0b010, 0b011]) ∧
    ([0x00B51863#32, 0x00B54863#32].all fun w => Spec.key1 0b1100011 w ∧ Spec.slice w 14 12 ∉ [0b010, 0b011]) ∧
    ([0x00000063#32, 0xFFFF8FE3#32].all fun w => Spec.key2 0b1100011 0b000 w) ∧
    ([0x00001063#32, 0xFFFF9FE3#32].all fun w => Spec.key2 0b1100011 0b001 w) ∧
    ([0x00004063#32, 0xFFFFCFE3#32].all fun w => Spec.key2 0b1100011 0b100 w) ∧
    ([0x00005063#32, 0xFFFFDFE3#32].all fun w => Spec.key2 0b1100011 0b101 w) ∧
    ([0x00006063#32, 0xFFFFEFE3#32].all fun w => Spec.key2 0b1100011 0b110 w) ∧
    ([0x00007063#32, 0xFFFFFFE3#32].all fun w => Spec.key2 0b1100011 0b111 w) := by
  repeat' apply And.intro
  all_goals decide

theorem witness_UpperImmediateRules :
    ([0x00000017#32, 0xFFFFFF97#32].all fun w => Spec.key1 0b0010111 w) ∧
    ([0x00000037#32, 0xFFFFFFB7#32].all fun w => Spec.key1 0b0110111 w) := by
  repeat' apply And.intro
  all_goals decide

theorem witness_JumpRules :
    ([0x0000006F#32, 0xFFFFFFEF#32].all fun w => Spec.key1 0b1101111 w) := by
  decide

theorem witness_SystemRules :
    ([0x3002C573#32].all fun w => Spec.key2 0b1110011 0b100 w) ∧
    ([0x00200073#32, 0x30200073#32, 0xFFF00073#32].all fun w => Spec.key2 0b1110011 0b000 w ∧ Spec.slice w 31 20 ∉ [0, 1]) ∧
    ([0x00000073#32, 0x000F8FF3#32, 0x00100073#32, 0xFFFFDFF3#32].all fun w => Spec.key1 0b1110011 w ∧
      Spec.slice w 14 12 ≠ 0b100 ∧ (Spec.slice w 14 12 = 0b000 → Spec.slice w 31 20 ∈ [0, 1])) ∧
    ([0x00000073#32, 0x000F8FF3#32].all fun w => Spec.key12 0b1110011 0b000 0b000000000000 w) ∧
    ([0x00100073#32, 0x001F8FF3#32].all fun w => Spec.key12 0b1110011 0b000 0b000000000001 w) ∧
    ([0x00001073#32, 0xFFFF9FF3#32].all fun w => Spec.key2 0b1110011 0b001 w) ∧
    ([0x00002073#32, 0xFFFFAFF3#32].all fun w => Spec.key2 0b1110011 0b010 w) ∧
    ([0x00003073#32, 0xFFFFBFF3#32].all fun w => Spec.key2 0b1110011 0b011 w) ∧
    ([0x00005073#32, 0xFFFFDFF3#32].all fun w => Spec.key2 0b1110011 0b101 w) ∧
    ([0x00006073#32, 0xFFFFEFF3#32].all fun w => Spec.key2 0b1110011 0b110 w) ∧
    ([0x00007073#32, 0xFFFFFFF3#32].all fun w => Spec.key2 0b1110011 0b111 w) := by
  repeat' apply And.intro
  all_goals decide

end Sys2Proof.Tests
end

/-! SUPPORT. What a failing trie walk can answer, and that it is the first failing check of spec/60_exceptions.md R215. -/

namespace Sys2Proof

theorem lookup_eq_none_iff {κ α : Type} [DecidableEq κ] {t : List (κ × α)} {k : κ} :
    lookup t k = none ↔ k ∉ t.map Prod.fst := by
  induction t with
  | nil => simp [lookup]
  | cons p rest ih =>
    by_cases hk : p.1 = k
    · simp [lookup, hk]
    · simp [lookup, hk, ih, Ne.symm hk]

/-! ## The levels of the trie -/

/-- The level below an opcode entry: its funct3 entries, none where the entry is a direct leaf (R61). -/
def OpcodeEntry.funct3Entries : OpcodeEntry → List (Funct3 × Funct3Entry)
  | .leaf _ => []
  | .byFunct3 t => t

/-- The opcode entry is keyed by funct3 and lacks this key (R66). -/
def OpcodeEntry.MissesFunct3 (f3 : Funct3) : OpcodeEntry → Prop
  | .leaf _ => False
  | .byFunct3 t => f3 ∉ t.map Prod.fst

/-- The funct3 entry is keyed by funct7 and lacks this key (R67). -/
def Funct3Entry.MissesFunct7 (f7 : Funct7) : Funct3Entry → Prop
  | .byFunct7 t => f7 ∉ t.map Prod.fst
  | .leaf _ | .byFunct12 _ => False

/-- The funct3 entry is keyed by funct12 and lacks this key (R67). -/
def Funct3Entry.MissesFunct12 (f12 : Funct12) : Funct3Entry → Prop
  | .byFunct12 t => f12 ∉ t.map Prod.fst
  | .leaf _ | .byFunct7 _ => False

theorem OpcodeEntry.not_missesFunct3_of_mem {entry : OpcodeEntry} {f3 : Funct3} {e3 : Funct3Entry}
    (h : (f3, e3) ∈ entry.funct3Entries) : ¬ entry.MissesFunct3 f3 := by
  cases entry with
  | leaf m => exact id
  | byFunct3 t => exact fun hmiss => hmiss (List.mem_map_of_mem h)

theorem Funct3Entry.not_missesFunct7_of_missesFunct12 {e3 : Funct3Entry} {f12 : Funct12} (f7 : Funct7)
    (h : e3.MissesFunct12 f12) : ¬ e3.MissesFunct7 f7 := by
  cases e3 with
  | leaf m => exact id
  | byFunct7 t => exact h.elim
  | byFunct12 t => exact id

/-! ## Inversion of a failing walk, level by level -/

theorem walkFunct3Entry_error_inv {f7 : Funct7} {f12 : Funct12} {e3 : Funct3Entry} {e : DecodeError}
    (h : walkFunct3Entry f7 f12 e3 = .error e) :
    (e3.MissesFunct7 f7 ∧ e = errFunct7 f7) ∨ (e3.MissesFunct12 f12 ∧ e = errFunct12 f12) := by
  cases e3 with
  | leaf m => cases h
  | byFunct7 t =>
    simp only [walkFunct3Entry] at h
    split at h
    · cases h; exact .inl ⟨lookup_eq_none_iff.1 ‹_›, rfl⟩
    · cases h
  | byFunct12 t =>
    simp only [walkFunct3Entry] at h
    split at h
    · cases h; exact .inr ⟨lookup_eq_none_iff.1 ‹_›, rfl⟩
    · cases h

theorem walkOpcodeEntry_error_inv {f3 : Funct3} {f7 : Funct7} {f12 : Funct12} {entry : OpcodeEntry} {e : DecodeError}
    (h : walkOpcodeEntry f3 f7 f12 entry = .error e) :
    (entry.MissesFunct3 f3 ∧ e = errFunct3 f3) ∨
      ∃ e3, (f3, e3) ∈ entry.funct3Entries ∧ walkFunct3Entry f7 f12 e3 = .error e := by
  cases entry with
  | leaf m => cases h
  | byFunct3 t =>
    simp only [walkOpcodeEntry] at h
    split at h
    · cases h; exact .inl ⟨lookup_eq_none_iff.1 ‹_›, rfl⟩
    · exact .inr ⟨_, lookup_mem ‹_›, h⟩

/-- A miss in the second table would be a miss in the first: they have the same keys (R69). -/
theorem walk_error_inv {op : Opcode} {f3 : Funct3} {f7 : Funct7} {f12 : Funct12} {e : DecodeError}
    (h : walk op f3 f7 f12 = .error e) :
    (op ∉ opcodeFormatTable.map Prod.fst ∧ e = errOpcode op) ∨
      ∃ entry, (op, entry) ∈ mnemonicTable ∧ walkOpcodeEntry f3 f7 f12 entry = .error e := by
  have hkeys : opcodeFormatTable.map Prod.fst = mnemonicTable.map Prod.fst := rfl
  unfold walk at h
  split at h
  · cases h; exact .inl ⟨lookup_eq_none_iff.1 ‹_›, rfl⟩
  · split at h
    · have hmiss : op ∉ mnemonicTable.map Prod.fst := lookup_eq_none_iff.1 ‹_›
      cases h; exact .inl ⟨hkeys ▸ hmiss, rfl⟩
    · split at h
      · cases h; exact .inr ⟨_, lookup_mem ‹_›, ‹_›⟩
      · cases h

/-! ## The error sets of R216 to R218 are the keys the tables lack -/

theorem mem_specOpcodes_iff {op : Opcode} : op.toNat ∈ Spec.opcodes ↔ op ∈ opcodeFormatTable.map Prod.fst := by
  have hkeys : Spec.opcodes = (opcodeFormatTable.map Prod.fst).map BitVec.toNat := rfl
  rw [hkeys, List.mem_map_of_injective fun _ _ => BitVec.eq_of_toNat_eq]

theorem badFunct3_iff (f3 : Funct3) : ∀ p ∈ mnemonicTable,
    (Spec.BadFunct3 p.1.toNat f3.toNat ↔ p.2.MissesFunct3 f3) := by
  simp only [mnemonicTable, trieOp, trieOpImm, trieJalr, trieLoad, trieStore, trieBranch, trieSystem,
    OpcodeEntry.MissesFunct3, List.forall_mem_cons, List.not_mem_nil, false_implies, implies_true]
  and_intros <;> revert f3 <;> decide

theorem badFunct7_iff (f7 : Funct7) : ∀ p ∈ mnemonicTable, ∀ q ∈ p.2.funct3Entries,
    (Spec.BadFunct7 p.1.toNat q.1.toNat f7.toNat ↔ q.2.MissesFunct7 f7) := by
  simp only [mnemonicTable, trieOp, trieOpImm, trieJalr, trieLoad, trieStore, trieBranch, trieSystem,
    OpcodeEntry.funct3Entries, List.forall_mem_cons]
  simp [Spec.BadFunct7, Funct3Entry.MissesFunct7, ← BitVec.toNat_inj]

theorem badFunct12_iff (f12 : Funct12) : ∀ p ∈ mnemonicTable, ∀ q ∈ p.2.funct3Entries,
    (Spec.BadFunct12 p.1.toNat q.1.toNat f12.toNat ↔ q.2.MissesFunct12 f12) := by
  simp only [mnemonicTable, trieOp, trieOpImm, trieJalr, trieLoad, trieStore, trieBranch, trieSystem,
    OpcodeEntry.funct3Entries, List.forall_mem_cons]
  simp [Spec.BadFunct12, Funct3Entry.MissesFunct12, ← BitVec.toNat_inj]

/-! ## The ports of each error -/

theorem errorPorts_errOpcode (op : Opcode) : errorPorts (errOpcode op) = Spec.errPorts 1 1 op.toNat := by
  simp [errorPorts, errOpcode, Spec.errPorts, ErrKind.code, Field.code, fmtNone, noOperandPort, Spec.unused]

theorem errorPorts_errFunct3 (f3 : Funct3) : errorPorts (errFunct3 f3) = Spec.errPorts 2 2 f3.toNat := by
  simp [errorPorts, errFunct3, Spec.errPorts, ErrKind.code, Field.code, fmtNone, noOperandPort, Spec.unused]

theorem errorPorts_errFunct7 (f7 : Funct7) : errorPorts (errFunct7 f7) = Spec.errPorts 3 3 f7.toNat := by
  simp [errorPorts, errFunct7, Spec.errPorts, ErrKind.code, Field.code, fmtNone, noOperandPort, Spec.unused]

theorem errorPorts_errFunct12 (f12 : Funct12) : errorPorts (errFunct12 f12) = Spec.errPorts 3 4 f12.toNat := by
  simp [errorPorts, errFunct12, Spec.errPorts, ErrKind.code, Field.code, fmtNone, noOperandPort, Spec.unused]

/-- The error a failing walk answers is the first failing check of R215, with its field and value. -/
theorem errorOf_of_walkWord_error {w : Word} {e : DecodeError} (h : walkWord w = .error e) :
    Spec.errorOf w = some (errorPorts e) := by
  simp only [Spec.errorOf, ← toNat_fieldOpcode, ← toNat_fieldFunct3, ← toNat_fieldFunct7, ← toNat_field31_20,
    mem_specOpcodes_iff]
  rcases walk_error_inv h with ⟨hop, rfl⟩ | ⟨entry, hentry, h⟩
  · rw [if_pos hop, errorPorts_errOpcode]
  have hop : fieldOpcode w ∈ opcodeFormatTable.map Prod.fst := List.mem_map_of_mem (f := Prod.fst) hentry
  have h3 := badFunct3_iff (fieldFunct3 w) _ hentry
  rw [if_neg (not_not_intro hop)]
  rcases walkOpcodeEntry_error_inv h with ⟨hf3, rfl⟩ | ⟨e3, he3, h⟩
  · rw [if_pos (h3.2 hf3), errorPorts_errFunct3]
  have h7 := badFunct7_iff (fieldFunct7 w) _ hentry _ he3
  have h12 := badFunct12_iff (field31_20 w) _ hentry _ he3
  rw [if_neg (mt h3.1 (OpcodeEntry.not_missesFunct3_of_mem he3))]
  rcases walkFunct3Entry_error_inv h with ⟨hf7, rfl⟩ | ⟨hf12, rfl⟩
  · rw [if_pos (h7.2 hf7), errorPorts_errFunct7]
  · rw [if_neg (mt h7.1 (Funct3Entry.not_missesFunct7_of_missesFunct12 _ hf12)), if_pos (h12.2 hf12),
      errorPorts_errFunct12]

end Sys2Proof

/-! SUPPORT. One step as one equation, and what its decode drives on the resolver ports, for a Decoded Instruction and
for an error (spec/10_state.md R26). -/

namespace Sys2Proof

open Sys2Proof.Machine

/-! ## Everything a decode can be, and everything a step does -/

/-- The two outcomes of a decode: the row whose keys the word has, or the error of the failing walk. -/
theorem decodeWord_cases (conv : RegNames) (w : Word) :
    (∃ m : Mnemonic, walkWord w = .ok (m, m.format) ∧ decodeWord conv w = .decoded ⟨m, m.format, template w m.format⟩) ∨
      ∃ e, walkWord w = .error e ∧ decodeWord conv w = .error e := by
  cases h : walkWord w with
  | error e => exact .inr ⟨e, rfl, decodeWord_of_error h⟩
  | ok p =>
    obtain ⟨m, fmt⟩ := p
    obtain ⟨rfl, -⟩ := walk_ok_iff.1 h
    exact .inl ⟨m, rfl, decodeWord_of_ok h⟩

/-- `REG_NAMES` selects names only: the register check passes under either convention. -/
theorem decodeWord_regNames_irrelevant (conv conv' : RegNames) (w : Word) : decodeWord conv w = decodeWord conv' w := by
  obtain ⟨m, hw, h⟩ | ⟨e, hw, h⟩ := decodeWord_cases conv w
  · rw [h, decodeWord_of_ok hw]
  · rw [h, decodeWord_of_error hw]

/-- A step presents the next word, and drives and collects its decode. -/
theorem step_eq (s : State) :
    step s = .next { present s with
      res := resolverPorts (decodeWord s.regNames s.nextWord)
      results := s.results ++ [decodeWord s.regNames s.nextWord] } := by
  obtain ⟨m, hw, h⟩ | ⟨e, hw, h⟩ := decodeWord_cases s.regNames s.nextWord
  · rw [step_of_ok (decode_of_ok hw), exec_instrOf, emit_eq, h]; rfl
  · rw [step_of_error (decode_of_error hw), raiseError_eq, h]; rfl

/-- After a step the resolver ports show a Decoded Instruction of the presented word, or its decode error. -/
theorem step_res_cases (s : State) :
    ∃ t, step s = .next t ∧ t.instr_i = s.nextWord ∧
      ((∃ m : Mnemonic, walkWord s.nextWord = .ok (m, m.format) ∧
          t.res = decodedPorts ⟨m, m.format, template s.nextWord m.format⟩) ∨
        ∃ e, walkWord s.nextWord = .error e ∧ t.res = errorPorts e) := by
  refine ⟨_, step_eq s, rfl, ?_⟩
  obtain ⟨m, hw, h⟩ | ⟨e, hw, h⟩ := decodeWord_cases s.regNames s.nextWord
  · exact .inl ⟨m, hw, congrArg resolverPorts h⟩
  · exact .inr ⟨e, hw, congrArg resolverPorts h⟩

theorem decodedPorts_ok_ne_zero (d : Decoded) : (decodedPorts d).ok_o ≠ 0 := by simp [decodedPorts]

theorem errorPorts_ok_ne_one (e : DecodeError) : (errorPorts e).ok_o ≠ 1 := by simp [errorPorts]

/-! ## The codes on the ports -/

theorem Format.code_le (f : Format) : f.code.toNat ≤ 8 := by cases f <;> decide

theorem mem_allMnemonics (m : Mnemonic) : m ∈ allMnemonics := by cases m <;> decide

theorem Mnemonic.id_le (m : Mnemonic) : m.id.toNat ≤ 45 := by cases m <;> decide

/-- A failing walk raises one of the first three kinds (R216 to R218), each a code of R210. -/
theorem errKind_code_le_of_walkWord_error {w : Word} {e : DecodeError} (h : walkWord w = .error e) :
    e.kind.code.toNat ≤ 4 := by
  rcases walk_error_inv h with ⟨-, rfl⟩ | ⟨entry, -, h⟩
  · simp [errOpcode, ErrKind.code]
  rcases walkOpcodeEntry_error_inv h with ⟨-, rfl⟩ | ⟨e3, -, h⟩
  · simp [errFunct3, ErrKind.code]
  rcases walkFunct3Entry_error_inv h with ⟨-, rfl⟩ | ⟨-, rfl⟩
  · simp [errFunct7, ErrKind.code]
  · simp [errFunct12, ErrKind.code]

/-- The format a successful walk finds is that of the word's opcode. -/
theorem formatOf_of_walkWord {w : Word} {m : Mnemonic} (h : walkWord w = .ok (m, m.format)) :
    Spec.formatOf (Spec.slice w 6 0) = some m.format.code := by
  obtain ⟨-, hop, -⟩ := walk_ok_iff.1 h
  rw [← toNat_fieldOpcode, hop]
  cases m <;> rfl

/-! ## The ports of a format's template -/

theorem template_ports (w : Word) (fmt : Format) :
    (BitVec.ofNat 2 (template w fmt).length, operandPortAt (template w fmt) 0, operandPortAt (template w fmt) 1,
      operandPortAt (template w fmt) 2) = Spec.templateByFormat fmt.code.toNat w := by
  cases fmt <;>
    simp [template, operandPortAt, Operand.port, noOperandPort, Spec.templateByFormat, Format.code, spec_rd, spec_rs1,
      spec_rs2, ← toNat_immI, ← toNat_immS, ← toNat_immSB, ← toNat_immU, ← toNat_immUJ, ← toNat_field31_20,
      Spec.reg, Spec.imm, Spec.mem, Spec.csr, Spec.unused]

theorem template_length (w : Word) (fmt : Format) : (template w fmt).length = 2 ∨ (template w fmt).length = 3 := by
  cases fmt <;> simp [template]

theorem template_nops (w : Word) (fmt : Format) :
    BitVec.ofNat 2 (template w fmt).length = 2 ∨ BitVec.ofNat 2 (template w fmt).length = 3 :=
  (template_length w fmt).imp (congrArg (BitVec.ofNat 2)) (congrArg (BitVec.ofNat 2))

theorem operandPortAt_of_length_le {ops : List Operand} {k : Nat} (h : ops.length ≤ k) :
    operandPortAt ops k = Spec.unused := by
  simp [operandPortAt, List.getElem?_eq_none h, noOperandPort, Spec.unused]

theorem template_op2_of_nops_eq_two {w : Word} {fmt : Format} (h : BitVec.ofNat 2 (template w fmt).length = 2) :
    operandPortAt (template w fmt) 2 = Spec.unused := by
  obtain hlen | hlen := template_length w fmt
  · exact operandPortAt_of_length_le hlen.le
  · rw [hlen] at h; contradiction

/-- A value port is 0 for `Reg`, a register port 0 for `Imm` and `Csr`. -/
theorem operandPortAt_unused_ports (ops : List Operand) (k : Nat) :
    ((operandPortAt ops k).opk = 0 → (operandPortAt ops k).opv = 0) ∧
      ((operandPortAt ops k).opk = 1 → (operandPortAt ops k).opr = 0) ∧
      ((operandPortAt ops k).opk = 3 → (operandPortAt ops k).opr = 0) := by
  unfold operandPortAt
  cases ops[k]? with
  | none => simp [noOperandPort]
  | some o => cases o <;> simp [Operand.port]

theorem toNat_immediateOf_template (w : Word) (fmt : Format) :
    (immediateOf (template w fmt)).toNat = Spec.immediateByFormat fmt.code.toNat w := by
  cases fmt <;>
    simp [-BitVec.toNat_setWidth, template, immediateOf, Spec.immediateByFormat, Format.code,
      BitVec.toNat_setWidth_of_le, toNat_immI, toNat_immS, toNat_immSB, toNat_immU, toNat_immUJ]

theorem toNat_immWidth (fmt : Format) : fmt.immWidth.toNat = Spec.immWidthByFormat fmt.code.toNat := by
  cases fmt <;> rfl

theorem toNat_csrNumberOf_template (w : Word) (fmt : Format) :
    (csrNumberOf (template w fmt)).toNat = if fmt.code = 8 then Spec.slice w 31 20 else 0 := by
  cases fmt <;> simp [template, csrNumberOf, Format.code, toNat_field31_20]

end Sys2Proof

/-! The obligations of spec/10_state.md. -/

namespace Sys2Proof

open Sys2Proof.Machine

/-! ## The Register Name table -/

theorem regName_numeric (i : RegIdx) : regName .numeric i = some ("x" ++ dec i.toNat) := by
  simp [regName, regNameTable, numericNames, i.isLt]

theorem regNameTable_nodup (conv : RegNames) : (regNameTable conv).Nodup := by cases conv <;> decide

theorem fp_notMem_regNameTable (conv : RegNames) : "fp" ∉ regNameTable conv := by cases conv <;> decide

theorem regName_injective (conv : RegNames) : Function.Injective (regName conv) := by
  intro i j hij
  have hi : i.toNat < (regNameTable conv).length := regNameTable_length conv ▸ i.isLt
  exact BitVec.eq_of_toNat_eq ((List.getElem?_inj hi (regNameTable_nodup conv)).1 hij)

/-- Settles O8: each table is complete, and lists no name twice. -/
theorem registerNamesAreABijection : Obligations.RegisterNamesAreABijection := fun conv =>
  ⟨fun i => Option.ne_none_iff_exists'.1 (regName_ne_none conv i), regName_injective conv⟩

/-- Settles O9: a lookup in each column, and `fp` in neither. -/
theorem registerNameTableEntries : Obligations.RegisterNameTableEntries :=
  ⟨rfl, regName_numeric, by decide, fun conv _ h => fp_notMem_regNameTable conv (List.mem_of_getElem? h)⟩

/-- Settles O34: the text of a register operand is its name in the table; the rest is each kind's row of R30. -/
theorem operandTextsAndPortCodes : Obligations.OperandTextsAndPortCodes := by
  intro conv i v v' n hn
  have htext : regText conv i = n := by simp [regText, hn]
  simp [Operand.text, Operand.port, htext]

/-! ## The ports after a step -/

/-- Settles O22: a step drives the extractor from the next word alone, and the resolver from its decode, which
`REG_NAMES` does not change. -/
theorem outputsDependOnInputWordOnly : Obligations.OutputsDependOnInputWordOnly := by
  intro s s' hw
  refine ⟨_, _, step_eq s, step_eq s', congrArg extract hw, ?_⟩
  simp only [hw, decodeWord_regNames_irrelevant s.regNames s'.regNames]

/-- Settles O11: the step equation, and each slice by place values. -/
theorem extractorDrivesEverySlice : Obligations.ExtractorDrivesEverySlice := fun s =>
  ⟨_, step_eq s, rfl, toNat_fieldOpcode _, toNat_fieldFunct3 _, toNat_fieldFunct7 _, toNat_fieldRd _, toNat_fieldRs1 _,
    toNat_fieldRs2 _, toNat_field31_20 _, toNat_field31_25 _, toNat_field11_7 _, toNat_field31 _, toNat_field7 _,
    toNat_field30_25 _, toNat_field11_8 _, toNat_field31_12 _, toNat_field19_12 _, toNat_field20 _, toNat_field30_21 _⟩

/-- Settles O10: the tables are read off; a decoded word drives codes of its mnemonic and format, an error `NONE`. -/
theorem codesAreTheTablesAndNoOthersAreDriven : Obligations.CodesAreTheTablesAndNoOthersAreDriven := by
  refine ⟨rfl, rfl, mem_allMnemonics, rfl, fun s => ?_⟩
  obtain ⟨t, hstep, -, ⟨m, -, hres⟩ | ⟨e, hw, hres⟩⟩ := step_res_cases s <;> refine ⟨t, hstep, ?_⟩ <;> rw [hres]
  · exact ⟨.inl m.format.code_le, m.id_le, Nat.zero_le _, fun hok => absurd hok (decodedPorts_ok_ne_zero _)⟩
  · exact ⟨.inr rfl, Nat.zero_le _, errKind_code_le_of_walkWord_error hw, fun _ => ⟨rfl, rfl⟩⟩

/-- Settles O12: a decoded word drives the ports of its format's template, an error those of the first failing check. -/
theorem resolverPortsFollowTheirTable : Obligations.ResolverPortsFollowTheirTable := by
  intro s
  obtain ⟨t, hstep, hinstr, ⟨m, hw, hres⟩ | ⟨e, hw, hres⟩⟩ := step_res_cases s <;>
    refine ⟨t, hstep, hinstr, ?_⟩ <;> rw [hinstr, hres]
  · have hmnem : (decodedPorts ⟨m, m.format, template s.nextWord m.format⟩).mnem_o = (instrOf s.nextWord m).mnemonic.id :=
      congrArg Mnemonic.id (mnemonic_instrOf _ m).symm
    have hslots := operandPortAt_unused_ports (template s.nextWord m.format)
    refine ⟨fun _ => ⟨rfl, rfl, rfl, formatOf_of_walkWord hw, ⟨_, decode_of_ok hw, hmnem⟩, template_ports _ _,
      template_nops _ _, template_op2_of_nops_eq_two, ?_, toNat_immediateOf_template _ _, toNat_immWidth _,
      toNat_csrNumberOf_template _ _⟩, fun hok => absurd hok (decodedPorts_ok_ne_zero _)⟩
    exact List.forall_mem_cons.2 ⟨hslots 0, List.forall_mem_cons.2 ⟨hslots 1, List.forall_mem_singleton.2 (hslots 2)⟩⟩
  · exact ⟨fun hok => absurd hok (errorPorts_ok_ne_one e),
      fun _ => ⟨errorOf_of_walkWord_error hw, rfl, rfl, rfl, rfl, rfl, rfl, rfl, rfl, rfl⟩⟩

end Sys2Proof

/-! The obligations of spec/30_encoding.md. -/

namespace Sys2Proof

open Sys2Proof.Machine
open Spec (slice)

/-! ## The tables and the text form -/

/-- Settles O7: the key columns are the same list, so a key missing in the second table is missing in the first. -/
theorem tablesShareOpcodeKeys : Obligations.TablesShareOpcodeKeys := by
  refine ⟨rfl, rfl, fun op h => ?_⟩
  have hkeys : opcodeFormatTable.map Prod.fst = mnemonicTable.map Prod.fst := rfl
  simp only [Option.isSome_iff_ne_none, ne_eq, lookup_eq_none_iff] at h ⊢
  rwa [← hkeys]

/-- Settles O35: joining two or three texts writes a comma between neighbours. -/
theorem decodedTextIsMnemonicSpaceOperands : Obligations.DecodedTextIsMnemonicSpaceOperands := by
  intro conv m fmt a b c
  simp [Result.text, Decoded.text, Decoded.operandTexts, String.append_assoc]

/-! ## The first failing check, and that it is the only one -/

theorem errorOf_eq_none_iff {w : Word} :
    Spec.errorOf w = none ↔ slice w 6 0 ∈ Spec.opcodes ∧ ¬ Spec.BadFunct3 (slice w 6 0) (slice w 14 12) ∧
      ¬ Spec.BadFunct7 (slice w 6 0) (slice w 14 12) (slice w 31 25) ∧
      ¬ Spec.BadFunct12 (slice w 6 0) (slice w 14 12) (slice w 31 20) := by
  unfold Spec.errorOf
  split_ifs <;> simp [*]

theorem errorOf_some_inv {w : Word} {p : ResolverPorts} (h : Spec.errorOf w = some p) :
    (slice w 6 0 ∉ Spec.opcodes ∧ p = Spec.errPorts 1 1 (slice w 6 0)) ∨
      (slice w 6 0 ∈ Spec.opcodes ∧ Spec.BadFunct3 (slice w 6 0) (slice w 14 12) ∧
        p = Spec.errPorts 2 2 (slice w 14 12)) ∨
      (slice w 6 0 ∈ Spec.opcodes ∧ Spec.BadFunct7 (slice w 6 0) (slice w 14 12) (slice w 31 25) ∧
        p = Spec.errPorts 3 3 (slice w 31 25)) ∨
      (slice w 6 0 ∈ Spec.opcodes ∧ Spec.BadFunct12 (slice w 6 0) (slice w 14 12) (slice w 31 20) ∧
        p = Spec.errPorts 3 4 (slice w 31 20)) := by
  unfold Spec.errorOf at h
  split_ifs at h with hop h3 h7 h12 <;> obtain rfl := Option.some.inj h
  · exact .inr (.inl ⟨hop, h3, rfl⟩)
  · exact .inr (.inr (.inl ⟨hop, h7, rfl⟩))
  · exact .inr (.inr (.inr ⟨hop, h12, rfl⟩))
  · exact .inl ⟨hop, rfl⟩

/-- The keys of a row are in none of the error sets of R216 to R218. -/
theorem not_bad_of_keysMatch {m : Mnemonic} {op : Opcode} {f3 : Funct3} {f7 : Funct7} {f12 : Funct12}
    (h : m.keysMatch op f3 f7 f12) :
    op.toNat ∈ Spec.opcodes ∧ ¬ Spec.BadFunct3 op.toNat f3.toNat ∧ ¬ Spec.BadFunct7 op.toNat f3.toNat f7.toNat ∧
      ¬ Spec.BadFunct12 op.toNat f3.toNat f12.toNat := by
  cases m <;> obtain ⟨rfl, h⟩ := h <;> obtain ⟨rfl, rfl⟩ := h <;>
    simp [Mnemonic.matchWord, fieldOpcode, fieldFunct3, fieldFunct7, field31_20, Spec.opcodes, Spec.BadFunct3,
      Spec.BadFunct7, Spec.BadFunct12]

theorem errorOf_of_walkWord_ok {w : Word} {m : Mnemonic} {fmt : Format} (h : walkWord w = .ok (m, fmt)) :
    Spec.errorOf w = none := by
  rw [errorOf_eq_none_iff, ← toNat_fieldOpcode, ← toNat_fieldFunct3, ← toNat_fieldFunct7, ← toNat_field31_20]
  exact not_bad_of_keysMatch (keysMatch_of_walk h)

/-! The four error sets are disjoint, so each port code identifies its set. -/

theorem not_bad_of_notMem_opcodes {op : Nat} (h : op ∉ Spec.opcodes) (f3 f7 f12 : Nat) :
    ¬ Spec.BadFunct3 op f3 ∧ ¬ Spec.BadFunct7 op f3 f7 ∧ ¬ Spec.BadFunct12 op f3 f12 := by
  simp only [Spec.opcodes, List.mem_cons, not_or] at h
  simp [Spec.BadFunct3, Spec.BadFunct7, Spec.BadFunct12, h]

theorem not_bad_of_badFunct3 {op f3 : Nat} (h : Spec.BadFunct3 op f3) (f7 f12 : Nat) :
    ¬ Spec.BadFunct7 op f3 f7 ∧ ¬ Spec.BadFunct12 op f3 f12 := by
  rcases h with ⟨rfl, -⟩ | ⟨rfl, -⟩ | ⟨rfl, -⟩ | ⟨rfl, -⟩ | ⟨rfl, rfl⟩ <;> simp [Spec.BadFunct7, Spec.BadFunct12]

theorem not_bad_of_badFunct7 {op f3 f7 : Nat} (h : Spec.BadFunct7 op f3 f7) (f12 : Nat) :
    ¬ Spec.BadFunct3 op f3 ∧ ¬ Spec.BadFunct12 op f3 f12 := by
  rcases h with ⟨rfl, -⟩ | ⟨rfl, -⟩ | ⟨rfl, -⟩ | ⟨rfl, -⟩ <;> simp [Spec.BadFunct3, Spec.BadFunct12]

theorem not_bad_of_badFunct12 {op f3 f12 : Nat} (h : Spec.BadFunct12 op f3 f12) (f7 : Nat) :
    ¬ Spec.BadFunct3 op f3 ∧ ¬ Spec.BadFunct7 op f3 f7 := by
  obtain ⟨rfl, rfl, -⟩ := h
  simp [Spec.BadFunct3, Spec.BadFunct7]

/-! ## The ports of an error -/

@[simp] theorem errPorts_err_o (kind field : BitVec 3) (v : Nat) : (Spec.errPorts kind field v).err_o = kind := rfl
@[simp] theorem errPorts_err_field_o (kind field : BitVec 3) (v : Nat) :
    (Spec.errPorts kind field v).err_field_o = field := rfl

theorem slice_lt (w : Word) (hi lo : Nat) : slice w hi lo < 2 ^ (hi - lo + 1) := Nat.mod_lt _ (by positivity)

theorem toNat_errPorts_value (kind field : BitVec 3) (w : Word) {hi lo : Nat} (h : hi - lo < 12) :
    (Spec.errPorts kind field (slice w hi lo)).err_value_o.toNat = slice w hi lo :=
  (BitVec.toNat_ofNat _ _).trans
    (Nat.mod_eq_of_lt ((slice_lt w hi lo).trans_le (Nat.pow_le_pow_right (by decide) h)))

/-- Settles O16: a decoded word is in none of the error sets, an erring one in exactly the set its ports name. -/
theorem errorsAreRaisedExactlyForTheListedKeys : Obligations.ErrorsAreRaisedExactlyForTheListedKeys := by
  refine ⟨rfl, fun s => ?_⟩
  obtain ⟨t, hstep, hinstr, hcases⟩ := step_res_cases s
  refine ⟨t, hstep, hinstr, ?_⟩
  rw [hinstr]
  generalize s.nextWord = w at hcases
  obtain ⟨m, hw, hres⟩ | ⟨e, hw, hres⟩ := hcases <;> rw [hres]
  · obtain ⟨hop, h3, h7, h12⟩ := errorOf_eq_none_iff.1 (errorOf_of_walkWord_ok hw)
    simp [decodedPorts, hop, h3, h7, h12]
  obtain ⟨hop, hp⟩ | ⟨hop, h3, hp⟩ | ⟨hop, h7, hp⟩ | ⟨hop, h12, hp⟩ :=
    errorOf_some_inv (errorOf_of_walkWord_error hw) <;> rw [hp]
  · obtain ⟨h3, h7, h12⟩ := not_bad_of_notMem_opcodes hop (slice w 14 12) (slice w 31 25) (slice w 31 20)
    simp [hop, eq_false h3, eq_false h7, eq_false h12, toNat_errPorts_value]
  · obtain ⟨h7, h12⟩ := not_bad_of_badFunct3 h3 (slice w 31 25) (slice w 31 20)
    simp [hop, eq_true h3, eq_false h7, eq_false h12, toNat_errPorts_value]
  · obtain ⟨h3, h12⟩ := not_bad_of_badFunct7 h7 (slice w 31 20)
    simp [hop, eq_false h3, eq_true h7, eq_false h12, toNat_errPorts_value]
  · obtain ⟨h3, h7⟩ := not_bad_of_badFunct12 h12 (slice w 31 25)
    simp [hop, eq_false h3, eq_false h7, eq_true h12, toNat_errPorts_value]

/-! ## The format of an opcode -/

theorem formatOf_eq_none_iff {op : Nat} : Spec.formatOf op = none ↔ op ∉ Spec.opcodes := by
  simp only [Spec.formatOf, Spec.opcodes]
  split_ifs <;> simp <;> omega

theorem lookup_opcodeFormatTable (op : Opcode) :
    (lookup opcodeFormatTable op).map Format.code = Spec.formatOf op.toNat := by
  by_cases h : op ∈ opcodeFormatTable.map Prod.fst
  · revert op
    decide
  · rw [lookup_eq_none_iff.2 h, Option.map_none, formatOf_eq_none_iff.2 (mt mem_specOpcodes_iff.1 h)]

theorem err_o_eq_one_iff {w : Word} {p : ResolverPorts} (h : Spec.errorOf w = some p) :
    p.err_o = 1 ↔ slice w 6 0 ∉ Spec.opcodes := by
  obtain ⟨hop, rfl⟩ | ⟨hop, -, rfl⟩ | ⟨hop, -, rfl⟩ | ⟨hop, -, rfl⟩ := errorOf_some_inv h <;> simp [hop]

/-- Settles O6: a decoded word drives its opcode's format, and an erring one `err_o` 1 where its opcode has none. -/
theorem formatFollowsOpcodeAlone : Obligations.FormatFollowsOpcodeAlone := by
  refine ⟨rfl, lookup_opcodeFormatTable, fun s => ?_⟩
  obtain ⟨t, hstep, hinstr, ⟨m, hw, hres⟩ | ⟨e, hw, hres⟩⟩ := step_res_cases s <;>
    refine ⟨t, hstep, hinstr, ?_⟩ <;> rw [hinstr, hres]
  · simp [formatOf_of_walkWord hw, decodedPorts]
  · have hone := err_o_eq_one_iff (errorOf_of_walkWord_error hw)
    rw [← formatOf_eq_none_iff] at hone
    exact ⟨fun c hc => ⟨fun hok => absurd hok (errorPorts_ok_ne_one e), fun h => by simp [hone.1 h] at hc⟩,
      fun h => ⟨rfl, hone.2 h⟩⟩

/-! ## Operands and immediates -/

/-- Settles O13: a decoded word drives its format's template. -/
theorem operandsFollowFormatTemplate : Obligations.OperandsFollowFormatTemplate := by
  intro s
  obtain ⟨t, hstep, hinstr, ⟨m, -, hres⟩ | ⟨e, -, hres⟩⟩ := step_res_cases s <;>
    refine ⟨t, hstep, hinstr, fun hok => ?_⟩
  · rw [hinstr, hres]
    exact ⟨m.format.code_le, template_ports _ _⟩
  · exact absurd (hres ▸ hok) (errorPorts_ok_ne_one e)

/-- The top bit of the word is the top bit of every slice `w[31:lo]`. -/
theorem two_pow_le_slice {w : Word} {lo : Nat} (hlo : lo ≤ 31) (h : slice w 31 31 = 1) :
    2 ^ (31 - lo) ≤ slice w 31 lo := by
  have htop : 2 ^ 31 ≤ w.toNat := by
    simp only [slice] at h
    omega
  have hlt : w.toNat / 2 ^ lo < 2 ^ (31 - lo + 1) :=
    Nat.div_lt_of_lt_mul (by rw [← Nat.pow_add, show lo + (31 - lo + 1) = 32 by omega]; exact w.isLt)
  rwa [slice, Nat.mod_eq_of_lt hlt, Nat.le_div_iff_mul_le (by positivity), ← Nat.pow_add, Nat.sub_add_cancel hlo]

/-- An immediate is not sign-extended to the port's 20 bits (R73). -/
theorem immediateOf_template_lt (w : Word) (fmt : Format) :
    (immediateOf (template w fmt)).toNat < 2 ^ fmt.immWidth.toNat := by
  rw [toNat_immediateOf_template]
  cases fmt with
  | r | csr => exact Nat.one_pos
  | i | iLoad => exact (toNat_immI w).symm.trans_lt (immI w).isLt
  | s => exact (toNat_immS w).symm.trans_lt (immS w).isLt
  | sb => exact (toNat_immSB w).symm.trans_lt (immSB w).isLt
  | uPCRelative | uAbsolute => exact (toNat_immU w).symm.trans_lt (immU w).isLt
  | uj => exact (toNat_immUJ w).symm.trans_lt (immUJ w).isLt

/-- In every format with an immediate, `w[31]` is the immediate's top bit (R72). -/
theorem two_pow_le_immediateOf_template {w : Word} (h : slice w 31 31 = 1) {fmt : Format} (hfmt : fmt.immWidth ≠ 0) :
    2 ^ (fmt.immWidth.toNat - 1) ≤ (immediateOf (template w fmt)).toNat := by
  rw [toNat_immediateOf_template]
  cases fmt with
  | r | csr => exact absurd rfl hfmt
  | i | iLoad => exact two_pow_le_slice (lo := 20) (by decide) h
  | s =>
    have hhigh : 2 ^ 6 ≤ slice w 31 25 := two_pow_le_slice (lo := 25) (by decide) h
    change 2 ^ 11 ≤ slice w 31 25 * 2 ^ 5 + _
    omega
  | sb =>
    change 2 ^ 11 ≤ slice w 31 31 * 2 ^ 11 + _ + _ + _
    omega
  | uPCRelative | uAbsolute => exact two_pow_le_slice (lo := 12) (by decide) h
  | uj =>
    change 2 ^ 19 ≤ slice w 31 31 * 2 ^ 19 + _ + _ + _
    omega

/-- Settles O14: the immediate a format's template carries, with its bounds at the two widths. -/
theorem immediatesAreUnsignedConcatenations : Obligations.ImmediatesAreUnsignedConcatenations := by
  intro s
  obtain ⟨t, hstep, hinstr, ⟨m, -, hres⟩ | ⟨e, -, hres⟩⟩ := step_res_cases s <;>
    refine ⟨t, hstep, hinstr, fun hok => ?_⟩
  · rw [hinstr, hres]
    have hlt := immediateOf_template_lt s.nextWord m.format
    have hge (h31 : slice s.nextWord 31 31 = 1) := two_pow_le_immediateOf_template h31 (fmt := m.format)
    refine ⟨toNat_immediateOf_template _ _, toNat_immWidth _, ?_, ?_, fun h31 => ⟨?_, ?_⟩⟩ <;>
      intro (hwidth : m.format.immWidth = _) <;> rw [hwidth] at hlt hge
    · exact hlt
    · exact hlt
    · exact hge h31 (by decide)
    · exact hge h31 (by decide)
  · exact absurd (hres ▸ hok) (errorPorts_ok_ne_one e)

end Sys2Proof

/-! SUPPORT. The rule of one instruction (the clauses of `Spec.InstrRule`) from its row of spec/opcode_table.json. -/

namespace Sys2Proof

open Spec (slice)

/-! ## The words of a row -/

/-- A row's mask and match select exactly the words with the row's key fields. -/
theorem mask_iff_keysMatch (m : Mnemonic) (w : Word) :
    w &&& m.maskWord = m.matchWord ↔ m.keysMatch (fieldOpcode w) (fieldFunct3 w) (fieldFunct7 w) (field31_20 w) := by
  cases m with
  | auipc | lui | jal => exact (mask_key1_iff rfl).trans (and_iff_left trivial).symm
  | ecall | ebreak => exact mask_key12_iff rfl
  | add | sub | sll | slt | sltu | xor | srl | sra | or | and | slli | srli | srai => exact mask_key3_iff rfl
  | addi | slti | sltiu | xori | ori | andi | jalr | lb | lh | lw | lbu | lhu | sb | sh | sw | beq | bne | blt | bge
  | bltu | bgeu | csrrw | csrrs | csrrc | csrrwi | csrrsi | csrrci => exact mask_key2_iff rfl

theorem matchWord_and_maskWord (m : Mnemonic) : m.matchWord &&& m.maskWord = m.matchWord := by cases m <;> rfl

/-- The words of a row keyed by opcode, funct3 and funct7 have the key values of its match word. -/
theorem mask_iff_key3 {m : Mnemonic} (hmask : m.maskWord = 0xFE00707F#32) (w : Word) :
    w &&& m.maskWord = m.matchWord ↔
      Spec.key3 (slice m.matchWord 6 0) (slice m.matchWord 14 12) (slice m.matchWord 31 25) w := by
  have hmatch := matchWord_and_maskWord m
  rw [hmask] at hmatch ⊢
  simp only [mask_key3_iff hmatch, ← BitVec.toNat_inj, toNat_fieldOpcode, toNat_fieldFunct3, toNat_fieldFunct7]

/-! ## What a word gives -/

theorem gives_of_walkWord_ok {w : Word} {m : Mnemonic} (h : walkWord w = .ok (m, m.format)) :
    Spec.Gives w (decodedPorts ⟨m, m.format, template w m.format⟩) := by
  rintro s rfl
  exact ⟨_, step_eq s, rfl, congrArg resolverPorts (decodeWord_of_ok h)⟩

theorem gives_of_errorOf {w : Word} {p : ResolverPorts} (h : Spec.errorOf w = some p) : Spec.Gives w p := by
  rintro s rfl
  obtain ⟨t, hstep, hinstr, ⟨m, hw, -⟩ | ⟨e, hw, hres⟩⟩ := step_res_cases s
  · rw [errorOf_of_walkWord_ok hw] at h
    contradiction
  · rw [errorOf_of_walkWord_error hw] at h
    exact ⟨t, hstep, hinstr, hres.trans (Option.some.inj h)⟩

theorem errorOf_of_badFunct7 {w : Word} (h : Spec.BadFunct7 (slice w 6 0) (slice w 14 12) (slice w 31 25)) :
    Spec.errorOf w = some (Spec.errPorts 3 3 (slice w 31 25)) := by
  have hop : slice w 6 0 ∈ Spec.opcodes := by
    by_contra hop
    exact (not_bad_of_notMem_opcodes hop _ _ 0).2.1 h
  rw [Spec.errorOf, if_neg (not_not_intro hop), if_neg (not_bad_of_badFunct7 h 0).1, if_pos h]

/-- An instruction's rule holds where its row has the rule's keys and its format's template drives the rule's ports. -/
theorem instrRule_of_row {m : Mnemonic} {keys : Word → Prop} {ports : Word → ResolverPorts}
    {texts : List (Word × String)} (hkeys : ∀ w, w &&& m.maskWord = m.matchWord ↔ keys w)
    (hports : ∀ w, decodedPorts ⟨m, m.format, template w m.format⟩ = ports w)
    (htexts : ∀ p ∈ texts, wordText .numeric p.1 = p.2) : Spec.InstrRule m.matchWord m.maskWord keys ports texts := by
  refine ⟨hkeys, fun w hw => ?_, htexts⟩
  have hwalk : walkWord w = .ok (m, m.format) := walk_of_keysMatch ((mask_iff_keysMatch m w).1 ((hkeys w).2 hw))
  exact hports w ▸ gives_of_walkWord_ok hwalk

end Sys2Proof

/-! The obligation of spec/40_r_type.md. -/

namespace Sys2Proof

open Spec (slice)

theorem maskWord_of_format_r {m : Mnemonic} : m.format = .r → m.maskWord = 0xFE00707F#32 := by cases m <;> decide

theorem decodedPorts_r {m : Mnemonic} (hm : m.format = .r) (w : Word) :
    decodedPorts ⟨m, m.format, template w m.format⟩ = Spec.rPorts m.id (Spec.rd w) (Spec.rs1 w) (Spec.rs2 w) := by
  rw [hm, spec_rd, spec_rs1, spec_rs2]
  rfl

/-- The rule of an R-format instruction, its key values those of its match word. -/
theorem instrRule_of_format_r {m : Mnemonic} (hm : m.format = .r) {texts : List (Word × String)}
    (htexts : ∀ p ∈ texts, wordText .numeric p.1 = p.2) :
    Spec.InstrRule m.matchWord m.maskWord
      (Spec.key3 (slice m.matchWord 6 0) (slice m.matchWord 14 12) (slice m.matchWord 31 25))
      (fun w => Spec.rPorts m.id (Spec.rd w) (Spec.rs1 w) (Spec.rs2 w)) texts :=
  instrRule_of_row (mask_iff_key3 (maskWord_of_format_r hm)) (decodedPorts_r hm) htexts

/-- Settles O45: a word in the funct7 error set raises that check's error; each of the ten rows of format R gives its
instruction's rule. -/
theorem rFormatRules : Obligations.RFormatRules := by
  refine ⟨fun w hbad hop => gives_of_errorOf (errorOf_of_badFunct7 (hop.symm ▸ hbad)), ?_⟩
  exact ⟨instrRule_of_format_r (m := .add) rfl (by decide), instrRule_of_format_r (m := .sub) rfl (by decide),
    instrRule_of_format_r (m := .sll) rfl (by decide), instrRule_of_format_r (m := .slt) rfl (by decide),
    instrRule_of_format_r (m := .sltu) rfl (by decide), instrRule_of_format_r (m := .xor) rfl (by decide),
    instrRule_of_format_r (m := .srl) rfl (by decide), instrRule_of_format_r (m := .sra) rfl (by decide),
    instrRule_of_format_r (m := .or) rfl (by decide), instrRule_of_format_r (m := .and) rfl (by decide)⟩

end Sys2Proof

/-! SUPPORT. For the rules of the formats whose instructions are keyed by funct3 alone: the words of a row, and the
funct3 error set (spec/60_exceptions.md R217). -/

namespace Sys2Proof

open Spec (slice)

/-- The words of a row keyed by opcode and funct3 have the key values of its match word. -/
theorem mask_iff_key2 {m : Mnemonic} (hmask : m.maskWord = 0x0000707F#32) (w : Word) :
    w &&& m.maskWord = m.matchWord ↔ Spec.key2 (slice m.matchWord 6 0) (slice m.matchWord 14 12) w := by
  have hmatch := matchWord_and_maskWord m
  rw [hmask] at hmatch ⊢
  simp only [mask_key2_iff hmatch, ← BitVec.toNat_inj, toNat_fieldOpcode, toNat_fieldFunct3]

theorem errorOf_of_badFunct3 {w : Word} (h : Spec.BadFunct3 (slice w 6 0) (slice w 14 12)) :
    Spec.errorOf w = some (Spec.errPorts 2 2 (slice w 14 12)) := by
  have hop : slice w 6 0 ∈ Spec.opcodes := by
    by_contra hop
    exact (not_bad_of_notMem_opcodes hop _ 0 0).1 h
  rw [Spec.errorOf, if_neg (not_not_intro hop), if_pos h]

end Sys2Proof

/-! The obligation of spec/41_i_type.md. -/

namespace Sys2Proof

open Spec (slice)

/-- In a shift word the immediate's parts are funct7 and the shift amount (R127 to R129). -/
theorem spec_immI_eq_funct7_add_shamt (w : Word) : Spec.immI w = slice w 31 25 * 2 ^ 5 + slice w 24 20 := by
  simp only [Spec.immI, slice]
  omega

theorem spec_immI_le (w : Word) : Spec.immI w ≤ 4095 := Nat.le_of_lt_succ (slice_lt w 31 20)

theorem le_spec_immI {w : Word} (h : slice w 31 31 = 1) : 2048 ≤ Spec.immI w :=
  two_pow_le_slice (lo := 20) (by decide) h

theorem decodedPorts_i {m : Mnemonic} (hm : m.format = .i) (w : Word) :
    decodedPorts ⟨m, m.format, template w m.format⟩ =
      Spec.iPorts m.id (Spec.rd w) (Spec.rs1 w) (BitVec.ofNat 20 (Spec.immI w)) := by
  rw [hm, spec_rd, spec_rs1, ← toNat_immI, BitVec.ofNat_toNat]
  rfl

/-- The rule of an I-format instruction; its keys are those of its row, with funct7 for the shifts. -/
theorem instrRule_of_format_i {m : Mnemonic} (hm : m.format = .i) {keys : Word → Prop} {texts : List (Word × String)}
    (hkeys : ∀ w, w &&& m.maskWord = m.matchWord ↔ keys w) (htexts : ∀ p ∈ texts, wordText .numeric p.1 = p.2) :
    Spec.InstrRule m.matchWord m.maskWord keys
      (fun w => Spec.iPorts m.id (Spec.rd w) (Spec.rs1 w) (BitVec.ofNat 20 (Spec.immI w))) texts :=
  instrRule_of_row hkeys (decodedPorts_i hm) htexts

/-- Settles O46: the immediate's bounds and its value in a shift word are place values; a word in the funct7 or funct3
error set raises that check's error; each of the ten rows of format I gives its instruction's rule. -/
theorem iFormatRules : Obligations.IFormatRules := by
  refine ⟨fun w => ⟨spec_immI_le w, le_spec_immI⟩, ?slliFunct7, ?srxiFunct7, ?jalrFunct3, ?slliImm, ?srliImm, ?sraiImm,
    ?rules⟩
  case slliFunct7 =>
    exact fun w ⟨hop, h3⟩ h7 => gives_of_errorOf (errorOf_of_badFunct7 (.inr (.inr (.inl ⟨hop, h3, h7⟩))))
  case srxiFunct7 =>
    exact fun w ⟨hop, h3⟩ h7 => gives_of_errorOf (errorOf_of_badFunct7 (.inr (.inr (.inr ⟨hop, h3, h7⟩))))
  case jalrFunct3 =>
    exact fun w hop h3 => gives_of_errorOf (errorOf_of_badFunct3 (.inr (.inr (.inr (.inl ⟨hop, h3⟩)))))
  case slliImm | srliImm | sraiImm =>
    intro w ⟨_, _, h7⟩
    simp [spec_immI_eq_funct7_add_shamt, h7]
  case rules =>
    exact ⟨instrRule_of_format_i (m := .addi) rfl (mask_iff_key2 rfl) (by decide),
      instrRule_of_format_i (m := .slti) rfl (mask_iff_key2 rfl) (by decide),
      instrRule_of_format_i (m := .sltiu) rfl (mask_iff_key2 rfl) (by decide),
      instrRule_of_format_i (m := .xori) rfl (mask_iff_key2 rfl) (by decide),
      instrRule_of_format_i (m := .ori) rfl (mask_iff_key2 rfl) (by decide),
      instrRule_of_format_i (m := .andi) rfl (mask_iff_key2 rfl) (by decide),
      instrRule_of_format_i (m := .slli) rfl (mask_iff_key3 rfl) (by decide),
      instrRule_of_format_i (m := .srli) rfl (mask_iff_key3 rfl) (by decide),
      instrRule_of_format_i (m := .srai) rfl (mask_iff_key3 rfl) (by decide),
      instrRule_of_format_i (m := .jalr) rfl (mask_iff_key2 rfl) (by decide)⟩

end Sys2Proof

/-! SUPPORT. A word that no check fails gives the outputs of its opcode's format, under the id of some row. -/

namespace Sys2Proof

open Spec (slice)

theorem Format.code_injective : Function.Injective Format.code := by
  intro f g
  cases f <;> cases g <;> decide

/-- A word without an error is the word of a row, and the row has its opcode's format. -/
theorem exists_gives_of_errorOf_eq_none {w : Word} {fmt : Format} (h : Spec.errorOf w = none)
    (hfmt : Spec.formatOf (slice w 6 0) = some fmt.code) :
    ∃ m : Mnemonic, m.format = fmt ∧ Spec.Gives w (decodedPorts ⟨m, m.format, template w m.format⟩) := by
  obtain ⟨m, hw, -⟩ | ⟨e, hw, -⟩ := decodeWord_cases .numeric w
  · have hcode : m.format.code = fmt.code := Option.some.inj ((formatOf_of_walkWord hw).symm.trans hfmt)
    exact ⟨m, Format.code_injective hcode, gives_of_walkWord_ok hw⟩
  · cases h.symm.trans (errorOf_of_walkWord_error hw)

end Sys2Proof

/-! The obligation of spec/42_i_load.md. -/

namespace Sys2Proof

open Spec (slice)

theorem maskWord_of_format_iLoad {m : Mnemonic} : m.format = .iLoad → m.maskWord = 0x0000707F#32 := by cases m <;> decide

theorem decodedPorts_iLoad {m : Mnemonic} (hm : m.format = .iLoad) (w : Word) :
    decodedPorts ⟨m, m.format, template w m.format⟩ =
      Spec.loadPorts m.id (Spec.rd w) (BitVec.ofNat 20 (Spec.immI w)) (Spec.rs1 w) := by
  rw [hm, spec_rd, spec_rs1, ← toNat_immI, BitVec.ofNat_toNat]
  rfl

/-- The rule of a load, its key values those of its match word. -/
theorem instrRule_of_format_iLoad {m : Mnemonic} (hm : m.format = .iLoad) {texts : List (Word × String)}
    (htexts : ∀ p ∈ texts, wordText .numeric p.1 = p.2) :
    Spec.InstrRule m.matchWord m.maskWord (Spec.key2 (slice m.matchWord 6 0) (slice m.matchWord 14 12))
      (fun w => Spec.loadPorts m.id (Spec.rd w) (BitVec.ofNat 20 (Spec.immI w)) (Spec.rs1 w)) texts :=
  instrRule_of_row (mask_iff_key2 (maskWord_of_format_iLoad hm)) (decodedPorts_iLoad hm) htexts

/-- Of the four checks, only that of funct3 can fail for a LOAD word (R140). -/
theorem errorOf_eq_none_of_load {w : Word} (hop : slice w 6 0 = 0b0000011)
    (h3 : slice w 14 12 ∉ [0b011, 0b110, 0b111]) : Spec.errorOf w = none := by
  rw [errorOf_eq_none_iff, hop]
  simpa [Spec.opcodes, Spec.BadFunct3, Spec.BadFunct7, Spec.BadFunct12] using h3

/-- Settles O47: a LOAD word in the funct3 error set raises that check's error, and any other gives its format's
outputs; each of the five rows of format I_Load gives its instruction's rule. -/
theorem loadRules : Obligations.LoadRules := by
  refine ⟨?badFunct3, ?otherFunct3, ?rules⟩
  case badFunct3 =>
    exact fun w hop h3 => gives_of_errorOf (errorOf_of_badFunct3 (.inl ⟨hop, h3⟩))
  case otherFunct3 =>
    intro w hop h3
    have hfmt : Spec.formatOf (slice w 6 0) = some Format.iLoad.code := congrArg Spec.formatOf hop
    obtain ⟨m, hm, hgives⟩ := exists_gives_of_errorOf_eq_none (errorOf_eq_none_of_load hop h3) hfmt
    exact ⟨m.id, decodedPorts_iLoad hm w ▸ hgives⟩
  case rules =>
    exact ⟨instrRule_of_format_iLoad (m := .lb) rfl (by decide), instrRule_of_format_iLoad (m := .lh) rfl (by decide),
      instrRule_of_format_iLoad (m := .lw) rfl (by decide), instrRule_of_format_iLoad (m := .lbu) rfl (by decide),
      instrRule_of_format_iLoad (m := .lhu) rfl (by decide)⟩

end Sys2Proof

/-! The obligation of spec/43_s_type.md. -/

namespace Sys2Proof

open Spec (slice)

theorem spec_immS_le (w : Word) : Spec.immS w ≤ 4095 :=
  Nat.le_of_lt_succ ((toNat_immS w).symm.trans_lt (immS w).isLt)

theorem maskWord_of_format_s {m : Mnemonic} : m.format = .s → m.maskWord = 0x0000707F#32 := by cases m <;> decide

theorem decodedPorts_s {m : Mnemonic} (hm : m.format = .s) (w : Word) :
    decodedPorts ⟨m, m.format, template w m.format⟩ =
      Spec.storePorts m.id (Spec.rs2 w) (BitVec.ofNat 20 (Spec.immS w)) (Spec.rs1 w) := by
  rw [hm, spec_rs2, spec_rs1, ← toNat_immS, BitVec.ofNat_toNat]
  rfl

/-- The rule of a store, its key values those of its match word. -/
theorem instrRule_of_format_s {m : Mnemonic} (hm : m.format = .s) {texts : List (Word × String)}
    (htexts : ∀ p ∈ texts, wordText .numeric p.1 = p.2) :
    Spec.InstrRule m.matchWord m.maskWord (Spec.key2 (slice m.matchWord 6 0) (slice m.matchWord 14 12))
      (fun w => Spec.storePorts m.id (Spec.rs2 w) (BitVec.ofNat 20 (Spec.immS w)) (Spec.rs1 w)) texts :=
  instrRule_of_row (mask_iff_key2 (maskWord_of_format_s hm)) (decodedPorts_s hm) htexts

/-- The funct3 error set of STORE is the upper end of funct3's three bits (R150). -/
theorem badFunct3_of_store_iff {w : Word} (hop : slice w 6 0 = 0b0100011) :
    Spec.BadFunct3 (slice w 6 0) (slice w 14 12) ↔ 0b011 ≤ slice w 14 12 := by
  have hfunct3 : ∀ f3 < 2 ^ 3, Spec.BadFunct3 0b0100011 f3 ↔ 0b011 ≤ f3 := by decide
  exact hop ▸ hfunct3 _ (slice_lt w 14 12)

/-- Of the four checks, only that of funct3 can fail for a STORE word (R150). -/
theorem errorOf_eq_none_of_store {w : Word} (hop : slice w 6 0 = 0b0100011) (h3 : slice w 14 12 < 0b011) :
    Spec.errorOf w = none := by
  have hgood : ¬ Spec.BadFunct3 (slice w 6 0) (slice w 14 12) := (badFunct3_of_store_iff hop).not.2 h3.not_ge
  rw [errorOf_eq_none_iff]
  refine ⟨?_, hgood, ?_, ?_⟩ <;> simp [hop, Spec.opcodes, Spec.BadFunct7, Spec.BadFunct12]

/-- Settles O48: a STORE word in the funct3 error set raises that check's error, and any other gives its format's
outputs; the immediate's value is that of its two parts, `w[31:25]` the high one; each of the three rows of format S
gives its instruction's rule. -/
theorem storeRules : Obligations.StoreRules := by
  refine ⟨?badFunct3, ?otherFunct3, fun w => ⟨spec_immS_le w, ?immParts⟩, ?rules⟩
  case badFunct3 =>
    exact fun w hop h3 => gives_of_errorOf (errorOf_of_badFunct3 ((badFunct3_of_store_iff hop).2 h3))
  case otherFunct3 =>
    intro w hop h3
    have hfmt : Spec.formatOf (slice w 6 0) = some Format.s.code := congrArg Spec.formatOf hop
    obtain ⟨m, hm, hgives⟩ := exists_gives_of_errorOf_eq_none (errorOf_eq_none_of_store hop h3) hfmt
    exact ⟨m.id, decodedPorts_s hm w ▸ hgives⟩
  case immParts =>
    intro hhigh hlow
    simp [Spec.immS, hhigh, hlow]
  case rules =>
    exact ⟨instrRule_of_format_s (m := .sb) rfl (by decide), instrRule_of_format_s (m := .sh) rfl (by decide),
      instrRule_of_format_s (m := .sw) rfl (by decide)⟩

end Sys2Proof

/-! The obligation of spec/44_sb_branch.md. -/

namespace Sys2Proof

open Spec (slice)

theorem spec_immSB_le (w : Word) : Spec.immSB w ≤ 4095 :=
  Nat.le_of_lt_succ ((toNat_immSB w).symm.trans_lt (immSB w).isLt)

theorem maskWord_of_format_sb {m : Mnemonic} : m.format = .sb → m.maskWord = 0x0000707F#32 := by cases m <;> decide

theorem decodedPorts_sb {m : Mnemonic} (hm : m.format = .sb) (w : Word) :
    decodedPorts ⟨m, m.format, template w m.format⟩ =
      Spec.branchPorts m.id (Spec.rs1 w) (Spec.rs2 w) (BitVec.ofNat 20 (Spec.immSB w)) := by
  rw [hm, spec_rs1, spec_rs2, ← toNat_immSB, BitVec.ofNat_toNat]
  rfl

/-- The rule of a branch, its key values those of its match word. -/
theorem instrRule_of_format_sb {m : Mnemonic} (hm : m.format = .sb) {texts : List (Word × String)}
    (htexts : ∀ p ∈ texts, wordText .numeric p.1 = p.2) :
    Spec.InstrRule m.matchWord m.maskWord (Spec.key2 (slice m.matchWord 6 0) (slice m.matchWord 14 12))
      (fun w => Spec.branchPorts m.id (Spec.rs1 w) (Spec.rs2 w) (BitVec.ofNat 20 (Spec.immSB w))) texts :=
  instrRule_of_row (mask_iff_key2 (maskWord_of_format_sb hm)) (decodedPorts_sb hm) htexts

/-- Of the four checks, only that of funct3 can fail for a BRANCH word (R160). -/
theorem errorOf_eq_none_of_branch {w : Word} (hop : slice w 6 0 = 0b1100011) (h3 : slice w 14 12 ∉ [0b010, 0b011]) :
    Spec.errorOf w = none := by
  rw [errorOf_eq_none_iff, hop]
  simpa [Spec.opcodes, Spec.BadFunct3, Spec.BadFunct7, Spec.BadFunct12] using h3

/-- Settles O49: a BRANCH word in the funct3 error set raises that check's error, and any other gives its format's
outputs; the immediate's value is that of the decode's 12-bit one; each of the six rows of format SB gives its
instruction's rule. -/
theorem branchRules : Obligations.BranchRules := by
  refine ⟨?badFunct3, ?otherFunct3, spec_immSB_le, ?rules⟩
  case badFunct3 =>
    exact fun w hop h3 => gives_of_errorOf (errorOf_of_badFunct3 (.inr (.inr (.inl ⟨hop, h3⟩))))
  case otherFunct3 =>
    intro w hop h3
    have hfmt : Spec.formatOf (slice w 6 0) = some Format.sb.code := congrArg Spec.formatOf hop
    obtain ⟨m, hm, hgives⟩ := exists_gives_of_errorOf_eq_none (errorOf_eq_none_of_branch hop h3) hfmt
    exact ⟨m.id, decodedPorts_sb hm w ▸ hgives⟩
  case rules =>
    exact ⟨instrRule_of_format_sb (m := .beq) rfl (by decide), instrRule_of_format_sb (m := .bne) rfl (by decide),
      instrRule_of_format_sb (m := .blt) rfl (by decide), instrRule_of_format_sb (m := .bge) rfl (by decide),
      instrRule_of_format_sb (m := .bltu) rfl (by decide), instrRule_of_format_sb (m := .bgeu) rfl (by decide)⟩

end Sys2Proof

/-! SUPPORT. For the rules of the formats whose instructions are keyed by opcode alone. -/

namespace Sys2Proof

open Spec (slice)

/-- The words of a row keyed by opcode have the key value of its match word. -/
theorem mask_iff_key1 {m : Mnemonic} (hmask : m.maskWord = 0x0000007F#32) (w : Word) :
    w &&& m.maskWord = m.matchWord ↔ Spec.key1 (slice m.matchWord 6 0) w := by
  have hmatch := matchWord_and_maskWord m
  rw [hmask] at hmatch ⊢
  simp only [mask_key1_iff hmatch, ← BitVec.toNat_inj, toNat_fieldOpcode]

end Sys2Proof

/-! The obligation of spec/45_u_type.md. -/

namespace Sys2Proof

open Spec (slice)

theorem spec_immU_le (w : Word) : Spec.immU w ≤ 1048575 := Nat.le_of_lt_succ (slice_lt w 31 12)

theorem maskWord_of_format_upper {m : Mnemonic} :
    m.format = .uPCRelative ∨ m.format = .uAbsolute → m.maskWord = 0x0000007F#32 := by cases m <;> decide

/-- The two formats have one template; the ports differ in the format code (R170). -/
theorem decodedPorts_upper {m : Mnemonic} (hm : m.format = .uPCRelative ∨ m.format = .uAbsolute) (w : Word) :
    decodedPorts ⟨m, m.format, template w m.format⟩ =
      Spec.upperPorts m.format.code m.id (Spec.rd w) (BitVec.ofNat 20 (Spec.immU w)) := by
  rw [spec_rd, ← toNat_immU, BitVec.ofNat_toNat]
  obtain hm | hm := hm <;> rw [hm] <;> rfl

/-- The rule of an upper-immediate instruction, its key value that of its match word. -/
theorem instrRule_of_format_upper {m : Mnemonic} (hm : m.format = .uPCRelative ∨ m.format = .uAbsolute)
    {texts : List (Word × String)} (htexts : ∀ p ∈ texts, wordText .numeric p.1 = p.2) :
    Spec.InstrRule m.matchWord m.maskWord (Spec.key1 (slice m.matchWord 6 0))
      (fun w => Spec.upperPorts m.format.code m.id (Spec.rd w) (BitVec.ofNat 20 (Spec.immU w))) texts :=
  instrRule_of_row (mask_iff_key1 (maskWord_of_format_upper hm)) (decodedPorts_upper hm) htexts

/-- Settles O50: the immediate is a slice of 20 bits; each of the two rows, one in either format, gives its
instruction's rule. -/
theorem upperImmediateRules : Obligations.UpperImmediateRules :=
  ⟨spec_immU_le, instrRule_of_format_upper (m := .auipc) (.inl rfl) (by decide),
    instrRule_of_format_upper (m := .lui) (.inr rfl) (by decide)⟩

end Sys2Proof

/-! The obligation of spec/46_uj_jump.md. -/

namespace Sys2Proof

theorem spec_immUJ_le (w : Word) : Spec.immUJ w ≤ 1048575 :=
  Nat.le_of_lt_succ ((toNat_immUJ w).symm.trans_lt (immUJ w).isLt)

theorem decodedPorts_jal (w : Word) :
    decodedPorts ⟨.jal, .uj, template w .uj⟩ = Spec.jumpPorts 37 (Spec.rd w) (BitVec.ofNat 20 (Spec.immUJ w)) := by
  rw [spec_rd, ← toNat_immUJ, BitVec.ofNat_toNat]
  rfl

/-- Settles O51: the immediate's value is that of the decode's 20-bit one; the one row of format UJ is keyed by opcode
alone and gives its instruction's rule. -/
theorem jumpRules : Obligations.JumpRules :=
  ⟨spec_immUJ_le, instrRule_of_row (m := .jal) (mask_iff_key1 rfl) decodedPorts_jal (by decide)⟩

end Sys2Proof

/-! SUPPORT. For the rules of the SYSTEM instructions keyed by funct12: the words of a row, and the funct12 error set
(spec/60_exceptions.md R218). -/

namespace Sys2Proof

open Spec (slice)

/-- The words of a row keyed by opcode, funct3 and funct12 have the key values of its match word. -/
theorem mask_iff_key12 {m : Mnemonic} (hmask : m.maskWord = 0xFFF0707F#32) (w : Word) :
    w &&& m.maskWord = m.matchWord ↔
      Spec.key12 (slice m.matchWord 6 0) (slice m.matchWord 14 12) (slice m.matchWord 31 20) w := by
  have hmatch := matchWord_and_maskWord m
  rw [hmask] at hmatch ⊢
  simp only [mask_key12_iff hmatch, ← BitVec.toNat_inj, toNat_fieldOpcode, toNat_fieldFunct3, toNat_field31_20]

theorem errorOf_of_badFunct12 {w : Word} (h : Spec.BadFunct12 (slice w 6 0) (slice w 14 12) (slice w 31 20)) :
    Spec.errorOf w = some (Spec.errPorts 3 4 (slice w 31 20)) := by
  have hop : slice w 6 0 ∈ Spec.opcodes := by
    by_contra hop
    exact (not_bad_of_notMem_opcodes hop _ 0 _).2.2 h
  obtain ⟨h3, h7⟩ := not_bad_of_badFunct12 h (slice w 31 25)
  rw [Spec.errorOf, if_neg (not_not_intro hop), if_neg h3, if_neg h7, if_pos h]

end Sys2Proof

/-! The obligation of spec/47_csr_system.md. -/

namespace Sys2Proof

open Spec (slice)

theorem decodedPorts_csr {m : Mnemonic} (hm : m.format = .csr) (w : Word) :
    decodedPorts ⟨m, m.format, template w m.format⟩ =
      Spec.csrPorts m.id (Spec.rd w) (BitVec.ofNat 12 (slice w 31 20)) (Spec.rs1 w) := by
  rw [hm, spec_rd, spec_rs1, ← toNat_field31_20, BitVec.ofNat_toNat, BitVec.setWidth_eq]
  rfl

/-- The rule of a CSR-format instruction; its keys are those of its row, with funct12 for `ecall` and `ebreak`. -/
theorem instrRule_of_format_csr {m : Mnemonic} (hm : m.format = .csr) {keys : Word → Prop} {texts : List (Word × String)}
    (hkeys : ∀ w, w &&& m.maskWord = m.matchWord ↔ keys w) (htexts : ∀ p ∈ texts, wordText .numeric p.1 = p.2) :
    Spec.InstrRule m.matchWord m.maskWord keys
      (fun w => Spec.csrPorts m.id (Spec.rd w) (BitVec.ofNat 12 (slice w 31 20)) (Spec.rs1 w)) texts :=
  instrRule_of_row hkeys (decodedPorts_csr hm) htexts

/-- Of the four checks, only those of funct3 and funct12 can fail for a SYSTEM word (R190). -/
theorem errorOf_eq_none_of_system {w : Word} (hop : slice w 6 0 = 0b1110011) (h3 : slice w 14 12 ≠ 0b100)
    (h12 : slice w 14 12 = 0b000 → slice w 31 20 ∈ [0, 1]) : Spec.errorOf w = none := by
  rw [errorOf_eq_none_iff, hop]
  refine ⟨by decide, ?funct3, ?funct7, fun ⟨_, hf3, hbad⟩ => hbad (h12 hf3)⟩
  case funct3 => simpa [Spec.BadFunct3] using h3
  case funct7 => simp [Spec.BadFunct7]

/-- Settles O52: a SYSTEM word in the funct3 or the funct12 error set raises that check's error, and any other gives its
format's outputs; each of the eight rows of format CSR gives its instruction's rule. -/
theorem systemRules : Obligations.SystemRules := by
  refine ⟨?badFunct3, ?badFunct12, ?otherKeys, ?rules⟩
  case badFunct3 =>
    exact fun w ⟨hop, h3⟩ => h3 ▸ gives_of_errorOf (errorOf_of_badFunct3 (.inr (.inr (.inr (.inr ⟨hop, h3⟩)))))
  case badFunct12 =>
    exact fun w ⟨hop, h3⟩ h12 => gives_of_errorOf (errorOf_of_badFunct12 ⟨hop, h3, h12⟩)
  case otherKeys =>
    intro w hop h3 h12
    have hfmt : Spec.formatOf (slice w 6 0) = some Format.csr.code := congrArg Spec.formatOf hop
    obtain ⟨m, hm, hgives⟩ := exists_gives_of_errorOf_eq_none (errorOf_eq_none_of_system hop h3 h12) hfmt
    exact ⟨m.id, decodedPorts_csr hm w ▸ hgives⟩
  case rules =>
    exact ⟨instrRule_of_format_csr (m := .csrrw) rfl (mask_iff_key2 rfl) (by decide),
      instrRule_of_format_csr (m := .csrrs) rfl (mask_iff_key2 rfl) (by decide),
      instrRule_of_format_csr (m := .csrrc) rfl (mask_iff_key2 rfl) (by decide),
      instrRule_of_format_csr (m := .csrrwi) rfl (mask_iff_key2 rfl) (by decide),
      instrRule_of_format_csr (m := .csrrsi) rfl (mask_iff_key2 rfl) (by decide),
      instrRule_of_format_csr (m := .csrrci) rfl (mask_iff_key2 rfl) (by decide),
      instrRule_of_format_csr (m := .ecall) rfl (mask_iff_key12 rfl) (by decide),
      instrRule_of_format_csr (m := .ebreak) rfl (mask_iff_key12 rfl) (by decide)⟩

end Sys2Proof

/-! The obligations of spec/60_exceptions.md. -/

namespace Sys2Proof

open Sys2Proof.Machine
open Spec (slice)

/-! ## The outputs of an error -/

theorem step_ext {s t : State} (h : step s = .next t) : t.ext = extract t.instr_i := by
  rw [step_eq] at h
  cases h
  rfl

theorem errorOf_of_notMem_opcodes {w : Word} (h : slice w 6 0 ∉ Spec.opcodes) :
    Spec.errorOf w = some (Spec.errPorts 1 1 (slice w 6 0)) := if_pos h

/-- Settles O18: a step with `ok_o` 0 drives an error's ports, which hold no partial result; each of the four
words fails one of the four checks. -/
theorem noPartialResultOnError : Obligations.NoPartialResultOnError := by
  refine ⟨fun s => ?afterStep, ?errorWords⟩
  case afterStep =>
    obtain ⟨t, hstep, hinstr, ⟨m, -, hres⟩ | ⟨e, -, hres⟩⟩ := step_res_cases s <;>
      refine ⟨t, hstep, hinstr, fun hok => ?_⟩
    · exact absurd (hres ▸ hok) (decodedPorts_ok_ne_zero _)
    · rw [hres]
      exact ⟨rfl, rfl, rfl, rfl, rfl, rfl, rfl, rfl, rfl, step_ext hstep⟩
  case errorWords =>
    simp only [List.forall_mem_cons, List.not_mem_nil, false_implies, implies_true, and_true]
    exact ⟨⟨_, gives_of_errorOf (errorOf_of_notMem_opcodes (by decide)), rfl⟩,
      ⟨_, gives_of_errorOf (errorOf_of_badFunct3 (by decide)), rfl⟩,
      ⟨_, gives_of_errorOf (errorOf_of_badFunct7 (by decide)), rfl⟩,
      ⟨_, gives_of_errorOf (errorOf_of_badFunct12 (by decide)), rfl⟩⟩

/-! ## The text of an error -/

theorem ErrKind.code_injective : Function.Injective ErrKind.code := by
  intro k l
  cases k <;> cases l <;> decide

theorem Field.code_injective : Function.Injective Field.code := by
  intro f g
  cases f <;> cases g <;> decide

/-- The error ports lose nothing of the error: kind, field and value are read back from them (R210). -/
theorem errorPorts_injective : Function.Injective errorPorts := by
  intro ⟨kind, field, value⟩ ⟨kind', field', value'⟩ h
  have hkind : kind = kind' := ErrKind.code_injective (congrArg ResolverPorts.err_o h)
  have hfield : field = field' := Field.code_injective (congrArg ResolverPorts.err_field_o h)
  have hvalue : value = value' := congrArg ResolverPorts.err_value_o h
  rw [hkind, hfield, hvalue]

/-- A word whose first failing check drives the ports of an error has that error's text, under either `REG_NAMES`. -/
theorem wordText_of_errorOf {conv : RegNames} {w : Word} {p : ResolverPorts} {e : DecodeError}
    (h : Spec.errorOf w = some p) (hports : errorPorts e = p) : wordText conv w = e.text := by
  subst hports
  obtain ⟨m, hw, -⟩ | ⟨e', hw, hdecode⟩ := decodeWord_cases conv w
  · cases (errorOf_of_walkWord_ok hw).symm.trans h
  · obtain rfl : e' = e := errorPorts_injective (Option.some.inj ((errorOf_of_walkWord_error hw).symm.trans h))
    exact congrArg (Result.text conv) hdecode

theorem text_errOpcode (op : Opcode) :
    (errOpcode op).text = "ERROR UnrecognizedOpcode(opcode=" ++ dec op.toNat ++ ")" := by
  rw [← BitVec.toNat_setWidth_of_le (show 7 ≤ 12 by decide)]
  rfl

theorem text_errFunct3 (f3 : Funct3) :
    (errFunct3 f3).text = "ERROR UnrecognizedFunct3(funct3=" ++ dec f3.toNat ++ ")" := by
  rw [← BitVec.toNat_setWidth_of_le (show 3 ≤ 12 by decide)]
  rfl

theorem text_errFunct7 (f7 : Funct7) :
    (errFunct7 f7).text = "ERROR UnrecognizedFunct7(funct7=" ++ dec f7.toNat ++ ")" := by
  rw [← BitVec.toNat_setWidth_of_le (show 7 ≤ 12 by decide)]
  rfl

theorem text_errFunct12 (f12 : Funct12) :
    (errFunct12 f12).text = "ERROR UnrecognizedFunct7(funct12=" ++ dec f12.toNat ++ ")" := rfl

/-- Settles O19: the names are read off; the check that a word fails first drives the ports of one error, and the
word's text is that error's. -/
theorem errorTexts : Obligations.ErrorTexts := by
  refine ⟨fun _ _ => rfl, rfl, rfl, fun conv w => ⟨fun h => ?opcode, fun h => ?funct3, fun h => ?funct7,
    fun h => ?funct12⟩⟩
  case opcode =>
    rw [wordText_of_errorOf (errorOf_of_notMem_opcodes h) (toNat_fieldOpcode w ▸ errorPorts_errOpcode (fieldOpcode w)),
      text_errOpcode, toNat_fieldOpcode]
  case funct3 =>
    rw [wordText_of_errorOf (errorOf_of_badFunct3 h) (toNat_fieldFunct3 w ▸ errorPorts_errFunct3 (fieldFunct3 w)),
      text_errFunct3, toNat_fieldFunct3]
  case funct7 =>
    rw [wordText_of_errorOf (errorOf_of_badFunct7 h) (toNat_fieldFunct7 w ▸ errorPorts_errFunct7 (fieldFunct7 w)),
      text_errFunct7, toNat_fieldFunct7]
  case funct12 =>
    rw [wordText_of_errorOf (errorOf_of_badFunct12 h) (toNat_field31_20 w ▸ errorPorts_errFunct12 (field31_20 w)),
      text_errFunct12, toNat_field31_20]

end Sys2Proof

/-! SUPPORT. The decoder in terms of the rows of spec/opcode_table.json, and the encoder against the fields of a word:
what the decoder reads from an encoded instruction, and what the encoder lays out from a word's own fields. -/

namespace Sys2Proof

open Spec (slice)

/-! ## The decoder, row by row -/

/-- A word in a row decodes to that row's instruction, its operands from the word's fields. -/
theorem decode_of_row {w : Word} {m : Mnemonic} (h : w &&& m.maskWord = m.matchWord) : decode w = .ok (instrOf w m) :=
  decode_of_ok (walk_of_keysMatch ((mask_iff_keysMatch m w).1 h))

/-- Everything the decoder can answer: the instruction of a row the word is in, or an error. -/
theorem decode_cases (w : Word) :
    (∃ m : Mnemonic, w &&& m.maskWord = m.matchWord ∧ decode w = .ok (instrOf w m)) ∨ ∃ e, decode w = .error e := by
  cases h : walkWord w with
  | ok p => exact .inl ⟨p.1, (mask_iff_keysMatch p.1 w).2 (keysMatch_of_walk h), decode_of_ok h⟩
  | error e => exact .inr ⟨e, decode_of_error h⟩

theorem decode_ok_iff {w : Word} {i : Instr} :
    decode w = .ok i ↔ ∃ m : Mnemonic, w &&& m.maskWord = m.matchWord ∧ instrOf w m = i := by
  constructor
  · intro h
    obtain ⟨m, hrow, hok⟩ | ⟨e, herr⟩ := decode_cases w
    · exact ⟨m, hrow, Except.ok.inj (hok.symm.trans h)⟩
    · cases herr.symm.trans h
  · rintro ⟨m, hrow, rfl⟩
    exact decode_of_row hrow

/-! ## The fields of an encoded word -/

section
variable (m : Mnemonic) (rd rs1 rs2 : RegIdx) (imm : Imm12) (imm20 : Imm20)

@[simp] theorem fieldRd_encodeR : fieldRd (encodeR m rd rs1 rs2) = rd := fieldRd_pack ..
@[simp] theorem fieldRs1_encodeR : fieldRs1 (encodeR m rd rs1 rs2) = rs1 := fieldRs1_pack ..
@[simp] theorem fieldRs2_encodeR : fieldRs2 (encodeR m rd rs1 rs2) = rs2 := fieldRs2_pack ..
@[simp] theorem fieldRd_encodeI : fieldRd (encodeI m rd rs1 imm) = rd := fieldRd_pack ..
@[simp] theorem fieldRs1_encodeI : fieldRs1 (encodeI m rd rs1 imm) = rs1 := fieldRs1_pack ..
@[simp] theorem field31_20_encodeI : field31_20 (encodeI m rd rs1 imm) = imm := immI_encodeI ..
@[simp] theorem fieldRs1_encodeS : fieldRs1 (encodeS m rs2 rs1 imm) = rs1 := fieldRs1_pack ..
@[simp] theorem fieldRs2_encodeS : fieldRs2 (encodeS m rs2 rs1 imm) = rs2 := fieldRs2_pack ..
@[simp] theorem fieldRs1_encodeSB : fieldRs1 (encodeSB m rs1 rs2 imm) = rs1 := fieldRs1_pack ..
@[simp] theorem fieldRs2_encodeSB : fieldRs2 (encodeSB m rs1 rs2 imm) = rs2 := fieldRs2_pack ..
@[simp] theorem fieldRd_encodeU : fieldRd (encodeU m rd imm20) = rd := fieldRd_pack ..
@[simp] theorem fieldRd_encodeUJ : fieldRd (encodeUJ m rd imm20) = rd := fieldRd_pack ..

end

/-- Reading an instruction's operands back from its word gives the instruction, well-formed or not. -/
theorem instrOf_encode (i : Instr) : instrOf (encode i) i.mnemonic = i := by
  cases i <;>
    simp [encode, Instr.mnemonic, instrOf, immI_encodeI, immS_encodeS, immSB_encodeSB, immU_encodeU, immUJ_encodeUJ]

/-- The word of a well-formed instruction is in the instruction's row: the family of lemmas, one per constructor. -/
theorem Laws.OpcodeRow.holds : ∀ i : Instr, Laws.OpcodeRow.Statement i
  | .add .. => add _ _ _
  | .sub .. => sub _ _ _
  | .sll .. => sll _ _ _
  | .slt .. => slt _ _ _
  | .sltu .. => sltu _ _ _
  | .xor .. => xor _ _ _
  | .srl .. => srl _ _ _
  | .sra .. => sra _ _ _
  | .or .. => or _ _ _
  | .and .. => and _ _ _
  | .addi .. => addi _ _ _
  | .slti .. => slti _ _ _
  | .sltiu .. => sltiu _ _ _
  | .xori .. => xori _ _ _
  | .ori .. => ori _ _ _
  | .andi .. => andi _ _ _
  | .slli .. => slli _ _ _
  | .srli .. => srli _ _ _
  | .srai .. => srai _ _ _
  | .jalr .. => jalr _ _ _
  | .lb .. => lb _ _ _
  | .lh .. => lh _ _ _
  | .lw .. => lw _ _ _
  | .lbu .. => lbu _ _ _
  | .lhu .. => lhu _ _ _
  | .sb .. => sb _ _ _
  | .sh .. => sh _ _ _
  | .sw .. => sw _ _ _
  | .beq .. => beq _ _ _
  | .bne .. => bne _ _ _
  | .blt .. => blt _ _ _
  | .bge .. => bge _ _ _
  | .bltu .. => bltu _ _ _
  | .bgeu .. => bgeu _ _ _
  | .auipc .. => auipc _ _
  | .lui .. => lui _ _
  | .jal .. => jal _ _
  | .csrrw .. => csrrw _ _ _
  | .csrrs .. => csrrs _ _ _
  | .csrrc .. => csrrc _ _ _
  | .csrrwi .. => csrrwi _ _ _
  | .csrrsi .. => csrrsi _ _ _
  | .csrrci .. => csrrci _ _ _
  | .ecall .. => ecall _ _ _
  | .ebreak .. => ebreak _ _ _

/-! ## The parts of a word's immediate are the fields it was read from (R72) -/

theorem immI_high (w : Word) : (immI w).extractLsb' 5 7 = fieldFunct7 w := by
  apply BitVec.eq_of_toNat_eq
  simp only [immI, field31_20, fieldFunct7, toNat_slice]
  omega

theorem immI_low (w : Word) : (immI w).extractLsb' 0 5 = fieldRs2 w := by
  apply BitVec.eq_of_toNat_eq
  simp only [immI, field31_20, fieldRs2, toNat_slice]
  omega

theorem immS_high (w : Word) : (immS w).extractLsb' 5 7 = fieldFunct7 w := by
  apply BitVec.eq_of_toNat_eq
  simp only [toNat_slice, toNat_immS, Spec.immS, Spec.slice, fieldFunct7]
  omega

theorem immS_low (w : Word) : (immS w).extractLsb' 0 5 = fieldRd w := by
  apply BitVec.eq_of_toNat_eq
  simp only [toNat_slice, toNat_immS, Spec.immS, Spec.slice, fieldRd]
  omega

/-- A field cut in two: the upper part is the more significant one. -/
theorem slice_split (w : Word) {hi mid lo : Nat} (hlo : lo ≤ mid) (hhi : mid < hi) :
    slice w hi lo = slice w hi (mid + 1) * 2 ^ (mid - lo + 1) + slice w mid lo := by
  have hpow : 2 ^ (hi - lo + 1) = 2 ^ (mid - lo + 1) * 2 ^ (hi - (mid + 1) + 1) := by rw [← pow_add]; congr 1; omega
  have hshift : 2 ^ (mid + 1) = 2 ^ lo * 2 ^ (mid - lo + 1) := by rw [← pow_add]; congr 1; omega
  simp only [slice, hpow, hshift, Nat.mod_mul, Nat.div_div_eq_div_mul]
  ring

theorem immSB_high (w : Word) : (immSB w).extractLsb' 11 1 ++ (immSB w).extractLsb' 4 6 = fieldFunct7 w := by
  apply BitVec.eq_of_toNat_eq
  simp only [toNat_append, toNat_slice, toNat_immSB, Spec.immSB, toNat_fieldFunct7]
  have hf7 : slice w 31 25 = slice w 31 31 * 2 ^ 6 + slice w 30 25 :=
    slice_split w (by decide) (by decide)
  have h31 := slice_lt w 31 31
  have h7 := slice_lt w 7 7
  have h30 := slice_lt w 30 25
  have h11 := slice_lt w 11 8
  omega

theorem immSB_low (w : Word) : (immSB w).extractLsb' 0 4 ++ (immSB w).extractLsb' 10 1 = fieldRd w := by
  apply BitVec.eq_of_toNat_eq
  simp only [toNat_append, toNat_slice, toNat_immSB, Spec.immSB, toNat_fieldRd]
  have hrd : slice w 11 7 = slice w 11 8 * 2 ^ 1 + slice w 7 7 :=
    slice_split w (by decide) (by decide)
  have h7 := slice_lt w 7 7
  have h30 := slice_lt w 30 25
  have h11 := slice_lt w 11 8
  omega

theorem immU_parts (w : Word) : (immU w).extractLsb' 13 7 = fieldFunct7 w ∧ (immU w).extractLsb' 8 5 = fieldRs2 w ∧
    (immU w).extractLsb' 3 5 = fieldRs1 w ∧ (immU w).extractLsb' 0 3 = fieldFunct3 w := by
  and_intros <;> apply BitVec.eq_of_toNat_eq <;>
    simp only [immU, field31_12, fieldFunct7, fieldRs2, fieldRs1, fieldFunct3, toNat_slice] <;> omega

/-- The lowest ten bits of the UJ immediate cross from `w[31:25]` into `w[24:20]` (R180). -/
theorem slice_30_21 (w : Word) : slice w 30 21 = slice w 30 25 * 2 ^ 4 + slice w 24 21 :=
  slice_split w (by decide) (by decide)

theorem immUJ_high (w : Word) : (immUJ w).extractLsb' 19 1 ++ (immUJ w).extractLsb' 4 6 = fieldFunct7 w := by
  apply BitVec.eq_of_toNat_eq
  have hf7 : slice w 31 25 = slice w 31 31 * 2 ^ 6 + slice w 30 25 := slice_split w (by decide) (by decide)
  simp only [toNat_append, toNat_slice, toNat_immUJ, Spec.immUJ, toNat_fieldFunct7, slice_30_21, hf7]
  have h31 := slice_lt w 31 31
  have h19 := slice_lt w 19 12
  have h20 := slice_lt w 20 20
  have h30 := slice_lt w 30 25
  have h24 := slice_lt w 24 21
  omega

theorem immUJ_rs2 (w : Word) : (immUJ w).extractLsb' 0 4 ++ (immUJ w).extractLsb' 10 1 = fieldRs2 w := by
  apply BitVec.eq_of_toNat_eq
  have hrs2 : slice w 24 20 = slice w 24 21 * 2 ^ 1 + slice w 20 20 := slice_split w (by decide) (by decide)
  simp only [toNat_append, toNat_slice, toNat_immUJ, Spec.immUJ, toNat_fieldRs2, slice_30_21, hrs2]
  have h19 := slice_lt w 19 12
  have h20 := slice_lt w 20 20
  have h30 := slice_lt w 30 25
  have h24 := slice_lt w 24 21
  omega

theorem immUJ_mid (w : Word) :
    (immUJ w).extractLsb' 14 5 = fieldRs1 w ∧ (immUJ w).extractLsb' 11 3 = fieldFunct3 w := by
  have h19 : slice w 19 12 = slice w 19 15 * 2 ^ 3 + slice w 14 12 := slice_split w (by decide) (by decide)
  have hrs1 := slice_lt w 19 15
  have hf3 := slice_lt w 14 12
  have h20 := slice_lt w 20 20
  have h30 := slice_lt w 30 21
  constructor <;> apply BitVec.eq_of_toNat_eq <;>
    simp only [toNat_slice, toNat_immUJ, Spec.immUJ, toNat_fieldRs1, toNat_fieldFunct3] <;> omega

/-! ## The encoder lays out a word's own fields as the word -/

section
variable {m : Mnemonic} {w : Word} (hop : fieldOpcode w = fieldOpcode m.matchWord)
include hop

theorem encodeR_fields (h3 : fieldFunct3 w = fieldFunct3 m.matchWord) (h7 : fieldFunct7 w = fieldFunct7 m.matchWord) :
    encodeR m (fieldRd w) (fieldRs1 w) (fieldRs2 w) = w := by
  rw [encodeR, ← hop, ← h3, ← h7, pack_fields]

theorem encodeI_fields (h3 : fieldFunct3 w = fieldFunct3 m.matchWord) :
    encodeI m (fieldRd w) (fieldRs1 w) (immI w) = w := by
  rw [encodeI, immI_high, immI_low, ← hop, ← h3, pack_fields]

theorem encodeS_fields (h3 : fieldFunct3 w = fieldFunct3 m.matchWord) :
    encodeS m (fieldRs2 w) (fieldRs1 w) (immS w) = w := by
  rw [encodeS, immS_high, immS_low, ← hop, ← h3, pack_fields]

theorem encodeSB_fields (h3 : fieldFunct3 w = fieldFunct3 m.matchWord) :
    encodeSB m (fieldRs1 w) (fieldRs2 w) (immSB w) = w := by
  rw [encodeSB, immSB_high, immSB_low, ← hop, ← h3, pack_fields]

theorem encodeU_fields : encodeU m (fieldRd w) (immU w) = w := by
  obtain ⟨h7, h2, h1, h3⟩ := immU_parts w
  rw [encodeU, h7, h2, h1, h3, ← hop, pack_fields]

theorem encodeUJ_fields : encodeUJ m (fieldRd w) (immUJ w) = w := by
  obtain ⟨h1, h3⟩ := immUJ_mid w
  rw [encodeUJ, immUJ_high, immUJ_rs2, h1, h3, ← hop, pack_fields]

end

/-- In a row, the instruction read from a word lays out the word again. -/
theorem encode_instrOf {w : Word} {m : Mnemonic} (h : w &&& m.maskWord = m.matchWord) : encode (instrOf w m) = w := by
  obtain ⟨hop, h⟩ := (mask_iff_keysMatch m w).1 h
  cases m with
  | add | sub | sll | slt | sltu | xor | srl | sra | or | and => exact encodeR_fields hop h.1 h.2
  | addi | slti | sltiu | xori | ori | andi | jalr | lb | lh | lw | lbu | lhu
  | csrrw | csrrs | csrrc | csrrwi | csrrsi | csrrci => exact encodeI_fields hop h
  | slli | srli | srai | ecall | ebreak => exact encodeI_fields hop h.1
  | sb | sh | sw => exact encodeS_fields hop h
  | beq | bne | blt | bge | bltu | bgeu => exact encodeSB_fields hop h
  | auipc | lui => exact encodeU_fields hop
  | jal => exact encodeUJ_fields hop

/-- In a row, the operand fields that are keys as well have the row's values. -/
theorem wellFormed_instrOf {w : Word} {m : Mnemonic} (h : w &&& m.maskWord = m.matchWord) :
    (instrOf w m).wellFormed = true := by
  obtain ⟨-, h⟩ := (mask_iff_keysMatch m w).1 h
  cases m with
  | slli | srli | srai => exact beq_iff_eq.2 ((immI_high w).trans h.2)
  | ecall | ebreak => exact beq_iff_eq.2 h.2
  | _ => rfl

end Sys2Proof

/-! The obligations of spec/30_encoding.md about the decoder, the encoder and the rows of spec/opcode_table.json. -/

namespace Sys2Proof

/-- Settles O1: each word has the keys of its row, and its operands are read off. -/
theorem sampleWordsDecode : Obligations.SampleWordsDecode := by
  refine ⟨decode_of_row (m := .sub) ?_, decode_of_row (m := .xori) ?_, decode_of_row (m := .lw) ?_,
    decode_of_row (m := .sb) ?_, decode_of_row (m := .bne) ?_, decode_of_row (m := .auipc) ?_,
    decode_of_row (m := .lui) ?_, decode_of_row (m := .jal) ?_, decode_of_row (m := .csrrwi) ?_,
    decode_of_row (m := .ebreak) ?_, rfl⟩ <;> decide

/-- Settles O2: the word of a well-formed instruction is in its row, and its operands are read back from it. -/
theorem everyWellFormedInstrRoundTrips : Obligations.EveryWellFormedInstrRoundTrips := by
  intro i hwf
  rw [decode_of_row (Laws.OpcodeRow.holds i hwf), instrOf_encode]

/-- Settles O3: a word that decodes is in a row, where the fields read are all the word's bits but the row's own. -/
theorem decodedInstrReencodesToItsWord : Obligations.DecodedInstrReencodesToItsWord := by
  intro w i h
  obtain ⟨m, hrow, rfl⟩ := decode_ok_iff.1 h
  exact ⟨wellFormed_instrOf hrow, encode_instrOf hrow⟩

/-- Settles O4: the instruction a row gives has the row's mnemonic. -/
theorem trieWalkAgreesWithOpcodeRows : Obligations.TrieWalkAgreesWithOpcodeRows := by
  intro w m
  constructor
  · rintro ⟨i, hi, rfl⟩
    obtain ⟨m, hrow, rfl⟩ := decode_ok_iff.1 hi
    rwa [mnemonic_instrOf]
  · exact fun hrow => ⟨_, decode_of_row hrow, mnemonic_instrOf w m⟩

/-- Settles O5: the decoder reads one instruction from a word, and its mnemonic is that of every row the word is in. -/
theorem eachWordReachesAtMostOneRow : Obligations.EachWordReachesAtMostOneRow := by
  refine fun w => ⟨fun m m' hrow hrow' => ?_, fun m hrow => ⟨_, decode_of_row hrow, mnemonic_instrOf w m⟩,
    fun hnone => ?_⟩
  · have hinstr : instrOf w m = instrOf w m' := Except.ok.inj ((decode_of_row hrow).symm.trans (decode_of_row hrow'))
    rw [← mnemonic_instrOf w m, hinstr, mnemonic_instrOf]
  · obtain ⟨m, hrow, -⟩ | herr := decode_cases w
    · exact absurd hrow (hnone m)
    · exact herr

end Sys2Proof

/-! The obligations about one step: its outcome on every word, the state it answers, and what its outcome depends on. -/

namespace Sys2Proof

open Sys2Proof.Machine
open Spec (slice)

/-! ## The state a step answers -/

/-- Settles O25: `step_eq`, its state written out. -/
theorem stepIsTheWholeDecode : Obligations.StepIsTheWholeDecode := step_eq

/-- Settles O26: a step drives both components' ports from the word it puts on `instr_i`. -/
theorem everyStepLeavesPortsDriven : Obligations.EveryStepLeavesPortsDriven := fun s => ⟨_, step_eq s, rfl, rfl⟩

/-- Settles O27: the reset state's ports are defined as the function of the free word. -/
theorem resetPortsAreDriven : Obligations.ResetPortsAreDriven := ⟨⟨rfl, rfl⟩, rfl, rfl, rfl⟩

/-- Settles O15: a failing walk raises the first failing check's error, and a successful one fails no check. -/
theorem everyWordHasOneOutcome : Obligations.EveryWordHasOneOutcome := by
  intro s
  obtain ⟨t, hstep, hinstr, ⟨m, hw, hres⟩ | ⟨e, hw, hres⟩⟩ := step_res_cases s <;>
    refine ⟨t, hstep, hinstr, ?_⟩ <;> rw [hinstr, hres]
  · simp [errorOf_of_walkWord_ok hw, decodedPorts]
  · simp [errorOf_of_walkWord_error hw]

/-! ## The step as the decoded instruction's meaning, and how a word is presented -/

/-- Settles O28: the two outcomes of the decoder, on the state in which the word has been presented. -/
theorem stepRunsTheDecodedInstr : Obligations.StepRunsTheDecodedInstr := fun s =>
  ⟨fun _ h => step_of_ok h, fun e h => (step_of_error h).trans (raiseError_eq e (present s))⟩

theorem decodeTableWord_eq_some_iff {nbits w : Nat} {i : Instr} :
    decodeTableWord nbits w = some i ↔ decode (wordOfTable nbits w) = .ok i := by
  unfold decodeTableWord
  cases decode (wordOfTable nbits w) <;> simp

/-- Settles O29: the word placed is the next word, so the step runs the instruction it decodes to. -/
theorem presentedWordIsRunNext : Obligations.PresentedWordIsRunNext := fun _ _ _ =>
  ⟨rfl, fun _ h => step_of_ok (decodeTableWord_eq_some_iff.1 h)⟩

theorem wordOfTable_toNat (w : Word) : wordOfTable 32 w.toNat = w := by
  rw [wordOfTable, Nat.mod_eq_of_lt w.isLt, BitVec.ofNat_toNat, BitVec.setWidth_eq]

/-- Settles O30: the step of a state at reset that has one word queued. -/
theorem firstDecodeAfterResetIsCorrect : Obligations.FirstDecodeAfterResetIsCorrect := by
  intro w
  rw [State.withFetchWord, wordOfTable_toNat]
  exact ⟨_, step_eq _, rfl, ⟨rfl, rfl⟩, rfl, rfl⟩

/-! ## The opcodes OP and OP-IMM: no error but that of funct7 -/

/-- Under OP and OP-IMM each funct3 has an entry, so the one check that can fail is that of funct7. -/
theorem errorOf_of_op_or_opImm {w : Word} (h : slice w 6 0 = 0b0110011 ∨ slice w 6 0 = 0b0010011) :
    Spec.errorOf w = none ∨ Spec.errorOf w = some (Spec.errPorts 3 3 (slice w 31 25)) := by
  have hop : slice w 6 0 ∈ Spec.opcodes := by obtain h | h := h <;> rw [h] <;> decide
  have h3 : ¬ Spec.BadFunct3 (slice w 6 0) (slice w 14 12) := by simp only [Spec.BadFunct3]; omega
  have h12 : ¬ Spec.BadFunct12 (slice w 6 0) (slice w 14 12) (slice w 31 20) := by simp only [Spec.BadFunct12]; omega
  by_cases h7 : Spec.BadFunct7 (slice w 6 0) (slice w 14 12) (slice w 31 25)
  · exact .inr (errorOf_of_badFunct7 h7)
  · exact .inl (errorOf_eq_none_iff.2 ⟨hop, h3, h7, h12⟩)

/-- Settles O17: without the funct7 error the word gives the template of its opcode's format. -/
theorem opAndOpImmNeverRaiseFunct3Error : Obligations.OpAndOpImmNeverRaiseFunct3Error := by
  refine ⟨fun w hop => ?op, fun w hop => ?opImm⟩
  case op =>
    refine (errorOf_of_op_or_opImm (.inl hop)).imp (fun hnone => ?_) gives_of_errorOf
    obtain ⟨m, hm, hgives⟩ := exists_gives_of_errorOf_eq_none (fmt := .r) hnone (hop.symm ▸ rfl)
    exact ⟨m.id, decodedPorts_r hm w ▸ hgives⟩
  case opImm =>
    refine (errorOf_of_op_or_opImm (.inr hop)).imp (fun hnone => ?_) gives_of_errorOf
    obtain ⟨m, hm, hgives⟩ := exists_gives_of_errorOf_eq_none (fmt := .i) hnone (hop.symm ▸ rfl)
    exact ⟨m.id, decodedPorts_i hm w ▸ hgives⟩

/-! ## Words that agree on the trie keys -/

/-- The same failing check, with the same value: the error set a word is in is decided by its keys. -/
theorem errorOf_of_sameKeys {w w' : Word} (hkeys : Spec.SameKeys w w') {p : ResolverPorts}
    (h : Spec.errorOf w = some p) : Spec.errorOf w' = some p := by
  obtain ⟨hop, hkeys⟩ := hkeys
  obtain ⟨hbad, rfl⟩ | ⟨-, hbad, rfl⟩ | ⟨-, hbad, rfl⟩ | ⟨-, hbad, rfl⟩ := errorOf_some_inv h
  · rw [hop] at hbad ⊢
    exact errorOf_of_notMem_opcodes hbad
  · have hmem : slice w 6 0 ∈ Spec.funct3Opcodes := by
      obtain ⟨h, -⟩ | ⟨h, -⟩ | ⟨h, -⟩ | ⟨h, -⟩ | ⟨h, -⟩ := hbad <;> rw [h] <;> decide
    obtain ⟨h3, -⟩ := hkeys hmem
    rw [hop, h3] at hbad
    rw [h3]
    exact errorOf_of_badFunct3 hbad
  · have hmem : slice w 6 0 ∈ Spec.funct3Opcodes := by
      obtain ⟨h, -⟩ | ⟨h, -⟩ | ⟨h, -⟩ | ⟨h, -⟩ := hbad <;> rw [h] <;> decide
    obtain ⟨h3, hR, hI, -⟩ := hkeys hmem
    have h7 : slice w 31 25 = slice w' 31 25 := by
      obtain ⟨h, -⟩ | ⟨h, -⟩ | ⟨h, hf3, -⟩ | ⟨h, hf3, -⟩ := hbad
      · exact hR h
      · exact hR h
      · exact hI h (by simp [hf3])
      · exact hI h (by simp [hf3])
    rw [hop, h3, h7] at hbad
    rw [h7]
    exact errorOf_of_badFunct7 hbad
  · obtain ⟨h, hf3, -⟩ := id hbad
    obtain ⟨h3, -, -, hS⟩ := hkeys (h ▸ by decide)
    have h12 := hS h hf3
    rw [hop, h3, h12] at hbad
    rw [h12]
    exact errorOf_of_badFunct12 hbad

/-- The agreement of two words' keys, in terms of the fields the walk reads. -/
theorem sameKeys_iff_fields {w w' : Word} :
    Spec.SameKeys w w' ↔ fieldOpcode w = fieldOpcode w' ∧ ((fieldOpcode w).toNat ∈ Spec.funct3Opcodes →
      fieldFunct3 w = fieldFunct3 w' ∧
        ((fieldOpcode w).toNat = 0b0110011 → fieldFunct7 w = fieldFunct7 w') ∧
        ((fieldOpcode w).toNat = 0b0010011 → (fieldFunct3 w).toNat ∈ [0b001, 0b101] → fieldFunct7 w = fieldFunct7 w') ∧
        ((fieldOpcode w).toNat = 0b1110011 → (fieldFunct3 w).toNat = 0b000 → field31_20 w = field31_20 w')) := by
  simp only [Spec.SameKeys, ← toNat_fieldOpcode, ← toNat_fieldFunct3, ← toNat_fieldFunct7, ← toNat_field31_20,
    BitVec.toNat_inj]

/-- A row's key fields are keys of its opcode's entry, so a word with the same keys is in the same row. -/
theorem row_of_sameKeys {w w' : Word} (hkeys : Spec.SameKeys w w') {m : Mnemonic}
    (h : w &&& m.maskWord = m.matchWord) : w' &&& m.maskWord = m.matchWord := by
  obtain ⟨hop', hkeys⟩ := sameKeys_iff_fields.1 hkeys
  obtain ⟨hop, h⟩ := (mask_iff_keysMatch m w).1 h
  refine (mask_iff_keysMatch m w').2 ⟨hop' ▸ hop, ?_⟩
  rw [hop] at hkeys
  cases m with
  | auipc | lui | jal => trivial
  | add | sub | sll | slt | sltu | xor | srl | sra | or | and =>
    obtain ⟨h3, h7, -⟩ := hkeys (by decide)
    exact ⟨h3 ▸ h.1, h7 rfl ▸ h.2⟩
  | slli | srli | srai =>
    obtain ⟨h3, -, h7, -⟩ := hkeys (by decide)
    exact ⟨h3 ▸ h.1, h7 rfl (h.1 ▸ by decide) ▸ h.2⟩
  | ecall | ebreak =>
    obtain ⟨h3, -, -, h12⟩ := hkeys (by decide)
    exact ⟨h3 ▸ h.1, h12 rfl (h.1 ▸ by decide) ▸ h.2⟩
  | addi | slti | sltiu | xori | ori | andi | jalr | lb | lh | lw | lbu | lhu | sb | sh | sw | beq | bne | blt | bge
  | bltu | bgeu | csrrw | csrrs | csrrc | csrrwi | csrrsi | csrrci => exact (hkeys (by decide)).1 ▸ h

/-- Settles O23: words with the same keys are in the same row, or fail the same check with the same value. -/
theorem decodeOutcomeDependsOnTrieKeysOnly : Obligations.DecodeOutcomeDependsOnTrieKeysOnly := by
  refine ⟨fun s s' hkeys => ?_, by decide, by decide, by decide, by decide⟩
  obtain ⟨t, hstep, -, ⟨m, hw, hres⟩ | ⟨e, hw, hres⟩⟩ := step_res_cases s
  · have hrow := (mask_iff_keysMatch m _).2 (keysMatch_of_walk hw)
    have hw' := walk_of_keysMatch ((mask_iff_keysMatch m _).1 (row_of_sameKeys hkeys hrow))
    obtain ⟨t', hstep', -, hres'⟩ := gives_of_walkWord_ok hw' s' rfl
    refine ⟨t, t', hstep, hstep', ?_⟩
    rw [hres, hres']
    exact ⟨rfl, rfl, rfl, rfl, rfl, rfl⟩
  · have herr' := errorOf_of_sameKeys hkeys (errorOf_of_walkWord_error hw)
    obtain ⟨t', hstep', -, hres'⟩ := gives_of_errorOf herr' s' rfl
    refine ⟨t, t', hstep, hstep', ?_⟩
    rw [hres, hres']
    exact ⟨rfl, rfl, rfl, rfl, rfl, rfl⟩

end Sys2Proof

/-! The obligations about the meanings of the instructions: what each emits, its frame, and its register check. -/

namespace Sys2Proof

open Sys2Proof.Machine

/-! ## Every meaning is one emission -/

/-- The meaning of any instruction, well-formed or not: it emits its mnemonic with the template of its format, filled
from the fields the encoder lays its operands out in. -/
theorem exec_eq_emit (i : Instr) (s : State) :
    exec i s = emit i.mnemonic i.mnemonic.format (template (encode i) i.mnemonic.format) s := by
  rw [← exec_instrOf, instrOf_encode]

/-! ## The register check -/

/-- The registers the check looks up are the template's, each with the field it comes from. -/
theorem zip_regFields_template (w : Word) (fmt : Format) :
    fmt.regFields.zip ((template w fmt).filterMap Operand.register) = Spec.templateRegisters w fmt := by
  cases fmt <;> simp only [Spec.templateRegisters, spec_rd, spec_rs1, spec_rs2] <;> rfl

/-- Settles O21: the check searches the template's registers in order, and each meaning ends with it. -/
theorem registerCheckRaisesForTheFirstUnnamedIndex : Obligations.RegisterCheckRaisesForTheFirstUnnamedIndex := by
  refine ⟨fun nameOf m fmt w => ⟨fun hall => ?named, fun before f i after hregs hbefore hi => ?unnamed⟩,
    fun i s => ⟨_, _, exec_eq_emit i s⟩⟩
  case named =>
    rw [checkRegistersIn, zip_regFields_template, firstUnnamed_eq_none.2 hall]
  case unnamed =>
    rw [checkRegistersIn, zip_regFields_template, hregs, firstUnnamed_append hbefore hi, BitVec.ofNat_toNat]
    rfl

/-- Settles O20: over the complete tables every emission delivers its Decoded Instruction, and the errors a step raises
are those of the walk. -/
theorem unknownRegisterIsNeverRaised : Obligations.UnknownRegisterIsNeverRaised := by
  refine ⟨fun conv i => Option.isSome_iff_ne_none.2 (regName_ne_none conv i),
    fun i s => ⟨_, (exec_eq_emit i s).trans (emit_eq ..), rfl, rfl⟩, fun s => ?_⟩
  obtain ⟨t, hstep, -, ⟨m, -, hres⟩ | ⟨e, hw, hres⟩⟩ := step_res_cases s <;> refine ⟨t, hstep, ?_⟩ <;> rw [hres]
  · simp [decodedPorts]
  · obtain ⟨-, hp⟩ | ⟨-, -, hp⟩ | ⟨-, -, hp⟩ | ⟨-, -, hp⟩ := errorOf_some_inv (errorOf_of_walkWord_error hw) <;>
      simp [hp]

/-! ## The frame of every instruction -/

/-- Settles O33: an emission writes the resolver ports from the Decoded Instruction alone, and appends one result. -/
theorem everyInstrTouchesOnlyItsOutputs : Obligations.EveryInstrTouchesOnlyItsOutputs := by
  intro i s
  have hexec (u : State) := (exec_eq_emit i u).trans (emit_eq ..)
  exact ⟨_, _, hexec s, hexec _, rfl, rfl, rfl, rfl, List.length_append, List.take_left, rfl⟩

/-! ## What an emission of each format's operands drives -/

section
variable (m : Mnemonic) (rd rs1 rs2 : RegIdx) (imm : Imm12) (imm20 : Imm20) (num : CsrNum) (s : State)

theorem emit_r : emit m .r [.reg rd, .reg rs1, .reg rs2] s =
    .next (Spec.emitted s (Spec.rPorts m.id rd rs1 rs2) m .r [.reg rd, .reg rs1, .reg rs2]) := emit_eq ..

theorem emit_i : emit m .i [.reg rd, .reg rs1, .imm (imm.setWidth 20)] s =
    .next (Spec.emitted s (Spec.iPorts m.id rd rs1 (imm.setWidth 20)) m .i
      [.reg rd, .reg rs1, .imm (imm.setWidth 20)]) := emit_eq ..

theorem emit_iLoad : emit m .iLoad [.reg rd, .mem imm rs1] s =
    .next (Spec.emitted s (Spec.loadPorts m.id rd (imm.setWidth 20) rs1) m .iLoad [.reg rd, .mem imm rs1]) := emit_eq ..

theorem emit_s : emit m .s [.reg rs2, .mem imm rs1] s =
    .next (Spec.emitted s (Spec.storePorts m.id rs2 (imm.setWidth 20) rs1) m .s [.reg rs2, .mem imm rs1]) := emit_eq ..

theorem emit_sb : emit m .sb [.reg rs1, .reg rs2, .imm (imm.setWidth 20)] s =
    .next (Spec.emitted s (Spec.branchPorts m.id rs1 rs2 (imm.setWidth 20)) m .sb
      [.reg rs1, .reg rs2, .imm (imm.setWidth 20)]) := emit_eq ..

theorem emit_csr : emit m .csr [.reg rd, .csr num, .reg rs1] s =
    .next (Spec.emitted s (Spec.csrPorts m.id rd num rs1) m .csr [.reg rd, .csr num, .reg rs1]) := emit_eq ..

end

/-- Settles O37: the ten meanings of format R. -/
theorem rFormatInstrsEmit : Obligations.RFormatInstrsEmit := fun s rd rs1 rs2 =>
  ⟨emit_r .add rd rs1 rs2 s, emit_r .sub rd rs1 rs2 s, emit_r .sll rd rs1 rs2 s, emit_r .slt rd rs1 rs2 s,
    emit_r .sltu rd rs1 rs2 s, emit_r .xor rd rs1 rs2 s, emit_r .srl rd rs1 rs2 s, emit_r .sra rd rs1 rs2 s,
    emit_r .or rd rs1 rs2 s, emit_r .and rd rs1 rs2 s⟩

/-- Settles O38: the ten meanings of format I. -/
theorem iFormatInstrsEmit : Obligations.IFormatInstrsEmit := fun s rd rs1 imm =>
  ⟨emit_i .addi rd rs1 imm s, emit_i .slti rd rs1 imm s, emit_i .sltiu rd rs1 imm s, emit_i .xori rd rs1 imm s,
    emit_i .ori rd rs1 imm s, emit_i .andi rd rs1 imm s, emit_i .slli rd rs1 imm s, emit_i .srli rd rs1 imm s,
    emit_i .srai rd rs1 imm s, emit_i .jalr rd rs1 imm s⟩

/-- Settles O39: the five meanings of format I_Load. -/
theorem loadInstrsEmit : Obligations.LoadInstrsEmit := fun s rd rs1 imm =>
  ⟨emit_iLoad .lb rd rs1 imm s, emit_iLoad .lh rd rs1 imm s, emit_iLoad .lw rd rs1 imm s, emit_iLoad .lbu rd rs1 imm s,
    emit_iLoad .lhu rd rs1 imm s⟩

/-- Settles O40: the three meanings of format S. -/
theorem storeInstrsEmit : Obligations.StoreInstrsEmit := fun s rs1 rs2 imm =>
  ⟨emit_s .sb rs1 rs2 imm s, emit_s .sh rs1 rs2 imm s, emit_s .sw rs1 rs2 imm s⟩

/-- Settles O41: the six meanings of format SB. -/
theorem branchInstrsEmit : Obligations.BranchInstrsEmit := fun s rs1 rs2 imm =>
  ⟨emit_sb .beq rs1 rs2 imm s, emit_sb .bne rs1 rs2 imm s, emit_sb .blt rs1 rs2 imm s, emit_sb .bge rs1 rs2 imm s,
    emit_sb .bltu rs1 rs2 imm s, emit_sb .bgeu rs1 rs2 imm s⟩

/-- Settles O42: the two meanings of the U formats, each with its own format code. -/
theorem upperImmediateInstrsEmit : Obligations.UpperImmediateInstrsEmit := fun s rd imm =>
  ⟨emit_eq .auipc .uPCRelative [.reg rd, .imm imm] s, emit_eq .lui .uAbsolute [.reg rd, .imm imm] s⟩

/-- Settles O43: the meaning of format UJ. -/
theorem jumpInstrEmits : Obligations.JumpInstrEmits := fun s rd imm => emit_eq .jal .uj [.reg rd, .imm imm] s

/-- Settles O44: the eight meanings of format CSR. -/
theorem systemInstrsEmit : Obligations.SystemInstrsEmit := fun s rd rs1 num =>
  ⟨emit_csr .csrrw rd rs1 num s, emit_csr .csrrs rd rs1 num s, emit_csr .csrrc rd rs1 num s,
    emit_csr .csrrwi rd rs1 num s, emit_csr .csrrsi rd rs1 num s, emit_csr .csrrci rd rs1 num s,
    emit_csr .ecall rd rs1 num s, emit_csr .ebreak rd rs1 num s⟩

end Sys2Proof

/-! The obligations about runs: the build parameter, and the results of a batch. -/

namespace Sys2Proof

open Sys2Proof.Machine

/-- A property of states that every step keeps holds after a run of any length, and the run completes. -/
theorem run_keeps {P : State → Prop} (hstep : ∀ s t, step s = .next t → P s → P t) (k : Nat) {s : State} (h : P s) :
    ∃ t : State, core.run k s = .next t ∧ P t := by
  induction k generalizing s with
  | zero => exact ⟨s, rfl, h⟩
  | succ k ih =>
    obtain ⟨t, hrun, ht⟩ := ih (hstep s _ (step_eq s) h)
    exact ⟨t, (run_succ_of_next (step_eq s)).trans hrun, ht⟩

theorem step_regNames {s t : State} (h : step s = .next t) : t.regNames = s.regNames := by
  rw [step_eq] at h
  cases h
  rfl

/-- Settles O24: no step changes `REG_NAMES`, so no run does. -/
theorem regNamesNeverChange : Obligations.RegNamesNeverChange := fun k s =>
  run_keeps (P := fun t => t.regNames = s.regNames) (fun _ _ hstep h => (step_regNames hstep).trans h) k rfl

/-- A step takes the first queued word and collects its decode. -/
theorem step_of_queued {s : State} {w : Word} {ws : List Word} (h : s.upcoming = w :: ws) :
    ∃ t, step s = .next t ∧ t.regNames = s.regNames ∧ t.upcoming = ws ∧
      t.results = s.results ++ [decodeWord s.regNames w] :=
  ⟨_, step_eq s, rfl, congrArg List.tail h, nextWord_cons h ▸ rfl⟩

/-- Settles O31, by induction on the queued words: a step takes the first and leaves the rest to the run. -/
theorem batchResultsFollowInputOrder : Obligations.BatchResultsFollowInputOrder := by
  intro ws
  induction ws with
  | nil => exact fun s h => ⟨s, rfl, (List.append_nil _).symm, h⟩
  | cons w ws ih =>
    intro s h
    obtain ⟨u, hstep, hnames, hqueue, hfirst⟩ := step_of_queued h
    obtain ⟨t, hrun, hrest, hempty⟩ := ih u hqueue
    refine ⟨t, (run_succ_of_next hstep).trans hrun, ?_, hempty⟩
    rw [hrest, hfirst, hnames, List.append_assoc]
    rfl

/-- At every place but that of the one word, the two batches agree. -/
theorem getElem?_append_cons_of_ne {α : Type} (pre post : List α) (a a' : α) {k : Nat} (hk : k ≠ pre.length) :
    (pre ++ a :: post)[k]? = (pre ++ a' :: post)[k]? := by
  have hset : pre ++ a' :: post = (pre ++ a :: post).set pre.length a' := by simp
  rw [hset, List.getElem?_set_ne hk.symm]

/-- Settles O32: result `k` is the decode of word `k` alone. -/
theorem oneWordNeverAffectsAnothersResult : Obligations.OneWordNeverAffectsAnothersResult := by
  intro pre post w w' s s' hs hs' hnames hempty hempty'
  have hlen (v : Word) : (pre ++ v :: post).length = pre.length + 1 + post.length := by
    simp only [List.length_append, List.length_cons]
    omega
  obtain ⟨t, hrun, hresults, -⟩ := batchResultsFollowInputOrder _ s hs
  obtain ⟨t', hrun', hresults', -⟩ := batchResultsFollowInputOrder _ s' hs'
  rw [hempty, List.nil_append] at hresults
  rw [hempty', List.nil_append, ← hnames] at hresults'
  refine ⟨t, t', hlen w ▸ hrun, hlen w' ▸ hrun', ?_, fun k hk => ?_⟩
  · rw [hresults, List.length_map, hlen]
  · rw [hresults, hresults', List.getElem?_map, List.getElem?_map, getElem?_append_cons_of_ne pre post w w' hk]

end Sys2Proof

/-! The obligation of spec/20_memory.md about the binary digit string. -/

namespace Sys2Proof

theorem toNat_ofBoolListBE_eq_foldl (s : List Bool) (a : Nat) :
    s.foldl (fun a b => 2 * a + b.toNat) a = a * 2 ^ s.length + (BitVec.ofBoolListBE s).toNat := by
  induction s generalizing a with
  | nil => exact (Nat.mul_one a).symm
  | cons b s ih =>
    rw [List.foldl_cons, ih, BitVec.ofBoolListBE, BitVec.toNat_cons']
    simp only [Nat.shiftLeft_eq, List.length_cons, pow_succ]
    ring

/-- Settles O36: the list read most significant digit first is the word, whose width is the list's length. -/
theorem binaryStringBitOrder : Obligations.BinaryStringBitOrder := by
  refine ⟨fun s hs => ⟨_, if_pos hs, fun j hj => ?bit, ?value⟩, fun s hs => if_neg hs⟩
  case bit =>
    have hplace : 32 - 1 - (31 - j) = j := by omega
    have hlt : 31 - j < 32 := by omega
    rw [BitVec.getLsbD_setWidth, BitVec.getLsbD_ofBoolListBE, hs, hplace, decide_eq_true hlt]
    rfl
  case value =>
    rw [toNat_ofBoolListBE_eq_foldl, BitVec.toNat_setWidth_of_le hs.le]
    simp

end Sys2Proof
